-- ==== Sys2Proof/Word.lean ====
section
/-!
DEFINITION. The word type of the block and the widths of the fields that are narrower than a word
(00_scope.md R5, R6; 92_eei_decisions.md D1).
-/

namespace Sys2Proof

/-- Every register, operand, FIFO word and counter is 32 bits (00_scope.md R5 `WORD`). -/
abbrev Word := BitVec 32

/-- A mailbox channel, "a 4-bit tag" (30_encoding.md R105, R114). -/
abbrev Channel := BitVec 4

/-- An interrupt line number, 0 to 31 (30_encoding.md R105, R115). -/
abbrev Line := BitVec 5

/-- A vector tag, 0 to 15 (30_encoding.md R105, R110). -/
abbrev Tag := BitVec 4

end Sys2Proof
end

