-- ==== Sys2Proof/Syntax.lean ====
section
/-!
DEFINITION. The operations of the block, one constructor per row of the opcode table (30_encoding.md R104).
The selector is carried as the operand the row gives it (30_encoding.md R105), already a number of its own width, so
that no term of this type names a line above 31 or a channel or tag above 15.
The two word operands `a0` and `a1` are not part of the command word (30_encoding.md R100, R106): they stand in the
foreground context's record (10_state.md R23).
-/

namespace Sys2Proof

/-- The seven operations (30_encoding.md R104). -/
inductive Instr where
  /-- `VEC.INIT` (41_vector_dispatch.md R161) -/
  | vecInit
  /-- `TMR.INIT` (43_timer.md R196) -/
  | tmrInit
  /-- `ICG.ENABLE line` (42_irq_gate.md R181) -/
  | icgEnable (line : Line)
  /-- `IRQ.UNMASK` (42_irq_gate.md R184) -/
  | irqUnmask
  /-- `MBX.SEND ch` (40_mailbox.md R141) -/
  | mbxSend (ch : Channel)
  /-- `MBX.RECV ch` (40_mailbox.md R143) -/
  | mbxRecv (ch : Channel)
  /-- `TRAP tag` (41_vector_dispatch.md R162, R163) -/
  | trap (tag : Tag)
deriving DecidableEq, Repr

end Sys2Proof
end

