-- ==== Sys2Proof/Decode.lean ====
section
/-!
DEFINITION. The command word: the decoder, total on every 32-bit word and rejecting by name, and the encoder
(30_encoding.md R102, R104, R105, R107).
-/

namespace Sys2Proof

/-- Why a command word is illegal, one constructor per clause of 30_encoding.md R107. -/
inductive Reject where
  /-- R107 (a): `OP` is 0 or 8 to 15 -/
  | reservedOpcode
  /-- R107 (b): `cmd[22:0] != 0` -/
  | mustBeZero
  /-- R107 (c): `OP` in 1, 2, 4 with `SEL != 0` -/
  | selectorNotZero
  /-- R107 (d): `OP` in 5, 6, 7 with `SEL[4] = 1` -/
  | selectorTooWide
deriving DecidableEq, Repr

/-- A command word is exactly one legal operation or illegal (30_encoding.md R102). -/
inductive Decoded where
  | legal (i : Instr)
  | illegal (r : Reject)
deriving DecidableEq, Repr

/-- The operation, where there is one. -/
def Decoded.instr? : Decoded → Option Instr
  | .legal i => some i
  | .illegal _ => none

/-- `OP = cmd[31:28]` (30_encoding.md R102). -/
def opField (w : Word) : BitVec 4 := w.extractLsb' 28 4

/-- `SEL = cmd[27:23]` (30_encoding.md R102). -/
def selField (w : Word) : BitVec 5 := w.extractLsb' 23 5

/-- `ZERO = cmd[22:0]` (30_encoding.md R102). -/
def zeroField (w : Word) : BitVec 23 := w.extractLsb' 0 23

/-- An operation without a selector: `SEL` must be 0 (30_encoding.md R105). -/
def decodePlain (sel : BitVec 5) (i : Instr) : Decoded :=
  if sel = 0#5 then .legal i else .illegal .selectorNotZero

/-- An operation whose selector is a channel or a tag: `SEL[4]` must be 0, the operand is `SEL[3:0]`
(30_encoding.md R105). -/
def decodeNibble (sel : BitVec 5) (f : BitVec 4 → Instr) : Decoded :=
  if sel.getLsbD 4 then .illegal .selectorTooWide else .legal (f (sel.extractLsb' 0 4))

/-- The selector step of the decoder, for a word whose `ZERO` field is 0 (30_encoding.md R104, R105). -/
def decodeSelected (op : BitVec 4) (sel : BitVec 5) : Decoded :=
  match op.toNat with
  | 1 => decodePlain sel .vecInit
  | 2 => decodePlain sel .tmrInit
  | 3 => .legal (.icgEnable sel)
  | 4 => decodePlain sel .irqUnmask
  | 5 => decodeNibble sel .mbxSend
  | 6 => decodeNibble sel .mbxRecv
  | 7 => decodeNibble sel .trap
  | _ => .illegal .reservedOpcode

/-- The decoder (30_encoding.md R102): total, every word is one legal operation or illegal by name. A word that
breaks several clauses of R107 is named by the first of (a), (b), (c), (d) it breaks. -/
def decode (w : Word) : Decoded :=
  if opField w = 0#4 ∨ 8 ≤ (opField w).toNat then .illegal .reservedOpcode
  else if zeroField w ≠ 0#23 then .illegal .mustBeZero
  else decodeSelected (opField w) (selField w)

/-- The opcode of an operation (30_encoding.md R104, column OP). -/
def opcode : Instr → BitVec 4
  | .vecInit => 1#4
  | .tmrInit => 2#4
  | .icgEnable _ => 3#4
  | .irqUnmask => 4#4
  | .mbxSend _ => 5#4
  | .mbxRecv _ => 6#4
  | .trap _ => 7#4

/-- The selector of an operation (30_encoding.md R105). -/
def selector : Instr → BitVec 5
  | .vecInit => 0#5
  | .tmrInit => 0#5
  | .icgEnable line => line
  | .irqUnmask => 0#5
  | .mbxSend ch => ch.setWidth 5
  | .mbxRecv ch => ch.setWidth 5
  | .trap tag => tag.setWidth 5

/-- The command word with a given opcode and selector: `OP ++ SEL ++ 0` (30_encoding.md R102). -/
def commandWord (op : BitVec 4) (sel : BitVec 5) : Word := op ++ sel ++ 0#23

/-- The encoder: the one command word of an operation. -/
def encode (i : Instr) : Word := commandWord (opcode i) (selector i)

/-- A row of the opcode table: a word `w` is this operation when `w & mask = match` (30_encoding.md R104). -/
structure OpcodeRow where
  mnemonic : String
  pattern : Word
  mask : Word
deriving DecidableEq, Repr

/-- The seven rows of 30_encoding.md R104, columns mnemonic, match and mask. -/
def opcodeTable : List OpcodeRow :=
  [ ⟨"VEC.INIT", 0x10000000#32, 0xFFFFFFFF#32⟩,
    ⟨"TMR.INIT", 0x20000000#32, 0xFFFFFFFF#32⟩,
    ⟨"ICG.ENABLE", 0x30000000#32, 0xF07FFFFF#32⟩,
    ⟨"IRQ.UNMASK", 0x40000000#32, 0xFFFFFFFF#32⟩,
    ⟨"MBX.SEND", 0x50000000#32, 0xF87FFFFF#32⟩,
    ⟨"MBX.RECV", 0x60000000#32, 0xF87FFFFF#32⟩,
    ⟨"TRAP", 0x70000000#32, 0xF87FFFFF#32⟩ ]

/-- The row matches the word (30_encoding.md R104). -/
def OpcodeRow.hits (row : OpcodeRow) (w : Word) : Bool := w &&& row.mask == row.pattern

/-- The name of an operation as the opcode table spells it. -/
def mnemonic : Instr → String
  | .vecInit => "VEC.INIT"
  | .tmrInit => "TMR.INIT"
  | .icgEnable _ => "ICG.ENABLE"
  | .irqUnmask => "IRQ.UNMASK"
  | .mbxSend _ => "MBX.SEND"
  | .mbxRecv _ => "MBX.RECV"
  | .trap _ => "TRAP"

/-- The command word an instruction of `nbits` bits numbered as the opcode table numbers them stands for. A command
is one 32-bit word (30_encoding.md R109): bits above `nbits` are 0, and nothing longer is a command. -/
def tableWord (nbits w : Nat) : Option Word :=
  if nbits ≤ 32 then some (BitVec.ofNat 32 (w % 2 ^ nbits)) else none

/-- The instruction the decoder reads from a word numbered as the opcode table numbers it. -/
def decodeTableWord (nbits w : Nat) : Option Instr :=
  match tableWord nbits w with
  | some c => (decode c).instr?
  | none => none

end Sys2Proof
end

