-- ==== Sys2Proof/Config.lean ====
section
/-!
DEFINITION. What an instance of the block fixes (00_scope.md R5), the inputs the environment agents bring
(00_scope.md R8, R9), and the free values: constants without a body, about which nothing can be proved.
-/

namespace Sys2Proof

/-- The width of a bus access as the master asks for it (20_memory.md R71). -/
inductive AccessSize where
  | byte
  | half
  | word
  | burst
deriving DecidableEq, Repr, Inhabited

/-- One access of the bus master at a byte address (20_memory.md R70, R71). -/
inductive Access where
  | read (addr : Nat) (size : AccessSize)
  | write (addr : Nat) (size : AccessSize) (w : Word)
deriving DecidableEq, Repr, Inhabited

/-- The byte address an access asks for. -/
def Access.addr : Access → Nat
  | .read addr _ => addr
  | .write addr _ _ => addr

/-- The width an access asks for. -/
def Access.size : Access → AccessSize
  | .read _ size => size
  | .write _ size _ => size

/-- Whose turn it is: the atomic steps of 60_exceptions.md R241 and the reset of 70_reset_and_hazards.md R260.
A turn at which its agent cannot step changes nothing. -/
inductive Event where
  /-- a micro-step of `FG` -/
  | foreground
  /-- a micro-step of `TC` -/
  | trapContext
  /-- the master puts an access on the register port, where it is held until it is answered (20_memory.md R98) -/
  | issue (a : Access)
  /-- the register port answers the oldest held access: a register access or a launch -/
  | host
  /-- the core accepts the interrupt (R224) -/
  | acceptIrq
  /-- the core presents a trap (R217, R229) -/
  | trap (tag : Tag) (syn far : Word)
  /-- the co-processor pops `OUT` (R240) -/
  | cpPop
  /-- the co-processor pushes a word into `IN` (R240) -/
  | cpPush (w : Word)
  /-- the tick step (43_timer.md R204) -/
  | tick
  /-- the external lines change (R221) -/
  | setExt (w : Word)
  /-- the reset input (70_reset_and_hazards.md R260) -/
  | reset
deriving DecidableEq, Repr, Inhabited

/-- The parameters 00_scope.md R5 leaves OPEN. -/
structure Params where
  /-- `BLOCK_BASE`, a byte address -/
  blockBase : Nat
  /-- `MBX_DEPTH`, in words -/
  mbxDepth : Nat
  /-- `TIMER_LINE` -/
  timerLine : Line
  /-- `INTERVAL_TICKS` -/
  interval : Word
deriving DecidableEq, Repr

/-- The ranges of 00_scope.md R5: the base is a multiple of 0x80, the depth at least 1, the interval not 0. -/
def Params.wf (p : Params) : Bool :=
  p.blockBase % 0x80 == 0 && decide (1 ≤ p.mbxDepth) && p.interval != 0

/-- The instantiation the spec's test vectors use (00_scope.md R5, column REF); it claims nothing of any board. -/
def Params.ref : Params :=
  { blockBase := 0, mbxDepth := 8, timerLine := 1, interval := 1000 }

/-- `BLOCK_BASE / 0x80`: OPEN (00_scope.md R5). Log entry 2. -/
opaque Config.blockBaseIndex : Nat

/-- `MBX_DEPTH - 1`: OPEN (00_scope.md R5). Log entry 2. -/
opaque Config.mbxDepthLessOne : Nat

/-- `TIMER_LINE`: OPEN (00_scope.md R5). Log entry 2. -/
opaque Config.timerLine : Line

/-- `INTERVAL_TICKS - 1`, modulo 2^32 - 1: OPEN (00_scope.md R5). Log entry 2. -/
opaque Config.intervalLessOne : Nat

/-- The parameters of the instance that `State.reset` is the reset state of: every value 00_scope.md R5 allows is
the value of some choice of the four constants. -/
def Config.params : Params :=
  { blockBase := 0x80 * Config.blockBaseIndex
    mbxDepth := Config.mbxDepthLessOne + 1
    timerLine := Config.timerLine
    interval := BitVec.ofNat 32 (Config.intervalLessOne % (2 ^ 32 - 1) + 1) }

/-- The word the `k`-th read of an empty `MBX_DATA` returns: any value (20_memory.md R74; 93_implementation_defined.md
U2). A free value. Log entry 4. -/
opaque Config.freeWord : Nat → Word

/-- The `k`-th turn the environment takes where no schedule is written down: any event (60_exceptions.md R241;
93_implementation_defined.md U10, U11). A free value. Log entry 1. -/
opaque Config.freeEvent : Nat → Event

end Sys2Proof
end

