-- ==== Sys2Proof/Machine/State.lean ====
section
/-!
DEFINITION. The state of the block (10_state.md), the reasons a step can stop, and the state after reset
(10_state.md R47).
-/

namespace Sys2Proof.Machine

/-- The labels of the foreground operations' micro-steps (10_state.md R23; the pseudocode of each operation rule). -/
inductive FgLabel where
  | s1
  | s2
  | s3
deriving DecidableEq, Repr

/-- The record of the operation in flight, `{op, sel, a0, a1, step, n, t}` (10_state.md R23); `op` and `sel` are held
decoded, as `instr`. -/
structure FgRecord where
  instr : Instr
  a0 : Word
  a1 : Word
  step : FgLabel
  /-- the poll counter, used by `MBX.RECV` only -/
  n : Word
  /-- the temporary -/
  t : Word
deriving DecidableEq, Repr

/-- The foreground context `FG` (10_state.md R23). -/
inductive Foreground where
  | idle
  | busy (r : FgRecord)
deriving DecidableEq, Repr

/-- The labels of the trap context's micro-steps (41_vector_dispatch.md R163, 43_timer.md R199). -/
inductive TcLabel where
  | t0
  | t1
  | t2
  | t3
  | f1
  | f2
  | f3
deriving DecidableEq, Repr

/-- The record of an active trap context, `{tag, syn, far, step, t}` (10_state.md R23). -/
structure TcRecord where
  tag : Tag
  syn : Word
  far : Word
  step : TcLabel
  t : Word
deriving DecidableEq, Repr

/-- A report record `{kind, tag, v0, v1}` (30_encoding.md R112). -/
structure Report where
  kind : BitVec 4
  tag : Tag
  v0 : Word
  v1 : Word
deriving DecidableEq, Repr

/-- What the register port answered last. -/
inductive HostReply where
  | none
  /-- a read's word -/
  | value (w : Word)
  /-- a write's completion -/
  | written
deriving DecidableEq, Repr

/-- The model's own fields: whose turn comes next, the counters the free values are drawn by, and what the two
ports last handed out. The spec gives the block none of them (log entries 1, 5, 10). -/
structure Env where
  sched : List Event
  turns : Nat
  draws : Nat
  hostQueue : List Access
  hostReply : HostReply
  cpTaken : Option Word
deriving DecidableEq, Repr

/-- The state of the block. Names are those of 10_state.md. -/
structure State where
  /-- the OPEN parameters of the instance (00_scope.md R5); no step changes them (log entry 2) -/
  par : Params
  /-- `ARG0` (R20) -/
  arg0 : Word
  /-- `ARG1` (R20) -/
  arg1 : Word
  /-- `RESULT` (R20) -/
  result : Word
  /-- `LAST_CMD` (R21) -/
  lastCmd : Word
  /-- `ERR` (R22) -/
  err : BitVec 4
  /-- `FG` (R23) -/
  fg : Foreground
  /-- `TC` (R23) -/
  tc : Option TcRecord
  /-- `ARMED` (R42) -/
  armed : Bool
  /-- `GIE` (R33) -/
  gie : Bool
  /-- `IN_IRQ` (R42) -/
  inIrq : Bool
  /-- `HALTED` (R42) -/
  halted : Bool
  /-- `TMR_ARMED` (R37) -/
  tmrArmed : Bool
  /-- `MATCH` (R38) -/
  matchFlag : Bool
  /-- `OUT`, oldest first (R25) -/
  out : List Word
  /-- `IN`, oldest first (R26) -/
  inb : List Word
  /-- `ENABLE` (R28) -/
  enable : Word
  /-- `EXT`, an input (R29) -/
  ext : Word
  /-- `COUNTER` (R35) -/
  counter : Word
  /-- `COMPARE` (R36) -/
  compare : Word
  /-- `NEXT_DEADLINE` (R39) -/
  nextDeadline : Word
  /-- `DIAG`, oldest first (R43) -/
  diag : List Report
  /-- `RPT_INFO` (R44) -/
  rptInfo : Word
  /-- `RPT_VAL0` (R44) -/
  rptVal0 : Word
  /-- `RPT_VAL1` (R44) -/
  rptVal1 : Word
  /-- `RPT_COUNT` (R44) -/
  rptCount : Word
  /-- the model's own fields -/
  env : Env
deriving DecidableEq, Repr

/-- Why the machine stops with a fault. -/
inductive Fault where
  /-- Raised by the trap context's turn in the state a trap before `VEC.INIT` has led to: `HALTED = 1`, `ERR = 3`
  (41_vector_dispatch.md R164; 93_implementation_defined.md U5: "Model: fault"). Safe. Log entry 7. -/
  | vecNotArmed
  /-- Raised by a meaning whose record names a micro-step its operation does not have. No state of the invariant
  holds such a record. Safe. Log entry 12. -/
  | strayLabel
  /-- Raised by `exec` when it is asked to run an operation other than the one in flight. `step` never asks so.
  Safe. Log entry 11. -/
  | notInFlight
deriving DecidableEq, Repr

/-- Why the machine refuses. -/
inductive Refusal where
  /-- Raised by an arm of `exec` that has no meaning yet. Safe. -/
  | notModelled (mnemonic : String)
  /-- Raised by the register port for an access of the window that is not an aligned 32-bit access
  (20_memory.md R71: "A model should *refuse* such an access"). Safe. Log entry 8. -/
  | accessNotAdmitted
  /-- Raised by the register port for an address that is not the block's (20_memory.md R73;
  93_implementation_defined.md U7). Safe. Log entry 8. -/
  | outsideWindow
deriving DecidableEq, Repr

/-- What a step of this machine answers. -/
abbrev Answer := Host.Outcome State Fault Refusal

/-- The model's own fields right after reset: nothing written down, nothing drawn (log entries 1, 5, 10). -/
def Env.reset : Env :=
  { sched := [], turns := 0, draws := 0, hostQueue := [], hostReply := .none, cpTaken := none }

/-- The values of 10_state.md R47 around a given instance, line level and environment, which a reset does not
change (R29, 70_reset_and_hazards.md R261). -/
def State.resetWith (par : Params) (ext : Word) (env : Env) : State :=
  { par := par
    arg0 := 0, arg1 := 0, result := 0, lastCmd := 0, err := 0
    fg := .idle, tc := none
    armed := false, gie := false, inIrq := false, halted := false
    tmrArmed := false, matchFlag := false
    out := [], inb := []
    enable := 0, ext := ext
    counter := 0, compare := 0, nextDeadline := 0
    diag := [], rptInfo := 0, rptVal0 := 0, rptVal1 := 0, rptCount := 0
    env := env }

/-- The machine right after reset (10_state.md R47). `EXT` is an input that reset does not set; its level here is
DESIGN CHOICE 0 (log entry 6). The parameters are the free constants of Config (log entry 2). -/
def State.reset : State := State.resetWith Config.params 0 Env.reset

end Sys2Proof.Machine
end

