-- ==== Sys2Proof/Machine/Operands.lean ====
section
/-!
DEFINITION. Operand forms: the tagged mailbox word, line masks, the vector tags with their classes, origins, routes
and labels, the route table, the register map, and the admission of a bus access.
-/

namespace Sys2Proof.Machine

/-! ### Mailbox words (30_encoding.md R114) -/

/-- Bits 31:4 of a word, bits 3:0 zero. -/
def payloadOf (w : Word) : Word := w &&& 0xFFFFFFF0#32

/-- Bits 3:0 of a word. -/
def channelOf (w : Word) : Channel := w.extractLsb' 0 4

/-- Building a tagged word: `(addr & 0xFFFFFFF0) | zext_32(ch)` (R114). -/
def taggedWord (ch : Channel) (addr : Word) : Word := payloadOf addr ||| ch.setWidth 32

/-- `RECV_SENTINEL` (00_scope.md R5). -/
def recvSentinel : Word := 0xFFFFFFFF#32

/-! ### Interrupt lines (30_encoding.md R115) -/

/-- The mask of line `k`: `1 << k`. -/
def lineMask (k : Line) : Word := 1#32 <<< k.toNat

/-- `TIMER_BIT = 1 << TIMER_LINE`. -/
def timerBit (p : Params) : Word := lineMask p.timerLine

/-- The handlers of the route table. -/
inductive Handler where
  | tmrFire
deriving DecidableEq, Repr

/-- `ROUTE`: exactly one entry, (`TIMER_BIT`, `TMR.FIRE`) (10_state.md R34). -/
def routeTable (p : Params) : List (Word × Handler) := [(timerBit p, .tmrFire)]

/-- The route match: equality of all 32 bits with an entry's pattern (41_vector_dispatch.md R167). -/
def routeOf (p : Params) (pending : Word) : Option Handler := (routeTable p).lookup pending

/-! ### Vector tags (30_encoding.md R110, R111) -/

/-- The four exception classes, in the order of R110. -/
inductive VectorClass where
  | synchronous
  | irq
  | fiq
  | systemError
deriving DecidableEq, Repr

/-- The four origins, in the order of R110. -/
inductive VectorOrigin where
  | lowerA32
  | lowerA64
  | sameThread
  | sameHandler
deriving DecidableEq, Repr

/-- `class = tag[1:0]` (R110). -/
def tagClass (tag : Tag) : VectorClass :=
  match (tag.extractLsb' 0 2).toNat with
  | 0 => .synchronous
  | 1 => .irq
  | 2 => .fiq
  | _ => .systemError

/-- `origin = tag[3:2]` (R110). -/
def tagOrigin (tag : Tag) : VectorOrigin :=
  match (tag.extractLsb' 2 2).toNat with
  | 0 => .lowerA32
  | 1 => .lowerA64
  | 2 => .sameThread
  | _ => .sameHandler

/-- `IRQ_TAG` (00_scope.md R5: 13). Log entry 3. -/
def irqTag : Tag := 13

/-- What a vector tag is routed to (10_state.md R41). -/
inductive VectorRoute where
  | fatalReport
  | irqDispatch
deriving DecidableEq, Repr

/-- `VT`: `IRQ_TAG` dispatches, the fifteen other tags are terminal (10_state.md R41). -/
def vectorRoute (tag : Tag) : VectorRoute := if tag = irqTag then .irqDispatch else .fatalReport

/-- The class half of a label (R111). -/
def className : VectorClass → String
  | .synchronous => "SYNC"
  | .irq => "IRQ"
  | .fiq => "FIQ"
  | .systemError => "SERROR"

/-- The origin half of a label (R111). -/
def originName : VectorOrigin → String
  | .lowerA32 => "LOWER_A32"
  | .lowerA64 => "LOWER_A64"
  | .sameThread => "SAME_THREAD"
  | .sameHandler => "SAME_HANDLER"

/-- `LABEL[tag]`: class name, `_`, origin name (R111). -/
def vectorLabel (tag : Tag) : String := className (tagClass tag) ++ "_" ++ originName (tagOrigin tag)

/-! ### The register window (20_memory.md R70) -/

/-- The registers of the window, and the reserved slots together. -/
inductive Reg where
  | mbxData
  | mbxStatus
  | icgEnable
  | icgPending
  | tmrCounter
  | tmrCompare
  | tmrMatch
  | tmrDeadline
  | tmrInterval
  | opArg0
  | opArg1
  | opCmd
  | opResult
  | opStatus
  | evdRoute
  | rptInfo
  | rptVal0
  | rptVal1
  | rptCount
  | icgRoute0
  | reserved
deriving DecidableEq, Repr

/-- The registers at offsets 0x00, 0x04, ..., 0x4C (R70). -/
def regMap : List Reg :=
  [ .mbxData, .mbxStatus, .icgEnable, .icgPending, .tmrCounter, .tmrCompare, .tmrMatch, .tmrDeadline,
    .tmrInterval, .opArg0, .opArg1, .opCmd, .opResult, .opStatus, .evdRoute, .rptInfo,
    .rptVal0, .rptVal1, .rptCount, .icgRoute0 ]

/-- The register of a word slot; slots 20 to 31 are reserved (R70). -/
def regOfSlot (slot : Nat) : Reg := regMap.getD slot .reserved

/-- What the port makes of an access (R71, R73). -/
inductive Admission where
  | admitted (r : Reg)
  | notAdmitted
  | outside
deriving DecidableEq, Repr

/-- The address is one of the window's 0x80 bytes (R70). -/
def inWindow (p : Params) (addr : Nat) : Bool :=
  decide (p.blockBase ≤ addr) && decide (addr < p.blockBase + 0x80)

/-- Only a 32-bit access at a multiple of 4 inside the window is admitted (R71). -/
def admission (p : Params) (addr : Nat) (size : AccessSize) : Admission :=
  if inWindow p addr then
    if size = .word ∧ addr % 4 = 0 then .admitted (regOfSlot ((addr - p.blockBase) / 4)) else .notAdmitted
  else .outside

end Sys2Proof.Machine
end

