-- ==== Sys2Proof/Machine/Flags.lean ====
section
/-!
DEFINITION. The values the block derives from its state: the FIFO flags and the mailbox status word, the raw and
pending interrupt words and the request line, and the two read-only words made of flags.
-/

namespace Sys2Proof.Machine

/-- A flag as a word with only bit `k` set or clear. -/
def flagBit (b : Bool) (k : Nat) : Word := if b then 1#32 <<< k else 0

/-- `OUT_FULL`: `len(OUT) = MBX_DEPTH` (10_state.md R24, R27). -/
def State.outFull (s : State) : Bool := s.out.length == s.par.mbxDepth

/-- `IN_AVAIL`: `len(IN) > 0` (10_state.md R24, R27). -/
def State.inAvail (s : State) : Bool := decide (0 < s.inb.length)

/-- `STATUS`: bit 31 = `OUT_FULL`, bit 0 = `IN_AVAIL`, bits 30:1 = 0 (10_state.md R27). -/
def State.mbxStatus (s : State) : Word := flagBit s.outFull 31 ||| flagBit s.inAvail 0

/-- `RAW[TIMER_LINE] = MATCH`, `RAW[k] = EXT[k]` for every other `k` (10_state.md R30). -/
def State.raw (s : State) : Word :=
  (s.ext &&& ~~~(timerBit s.par)) ||| (if s.matchFlag then timerBit s.par else 0)

/-- `PENDING = RAW & ENABLE` (10_state.md R31). -/
def State.pending (s : State) : Word := s.raw &&& s.enable

/-- `irq_out = 1` exactly when `PENDING != 0` (10_state.md R32). -/
def State.irqOut (s : State) : Bool := s.pending != 0

/-- `irq_masked` = (`GIE = 0` or `TC != none` or `HALTED = 1`) (60_exceptions.md R229). -/
def State.irqMasked (s : State) : Bool := !s.gie || s.tc.isSome || s.halted

/-- The conditions under which the core may accept the interrupt (60_exceptions.md R224). -/
def State.irqAcceptable (s : State) : Bool := s.irqOut && !s.irqMasked

/-- `OP_STATUS` (20_memory.md R89). -/
def State.opStatus (s : State) : Word :=
  flagBit s.armed 0 ||| flagBit s.gie 1 ||| flagBit s.inIrq 2 ||| flagBit s.halted 3
    ||| flagBit s.tmrArmed 4 ||| flagBit s.matchFlag 5 ||| (s.err.setWidth 32 <<< 8)

/-- `EVD_ROUTE`: bit `t` is 1 exactly when `VT[t] = IRQ_DISPATCH` (20_memory.md R90). -/
def evdRouteWord : Word :=
  (List.range 16).foldl
    (fun acc t => acc ||| flagBit (decide (vectorRoute (BitVec.ofNat 4 t) = .irqDispatch)) t) 0

/-- `FG` may execute a micro-step only when `TC = none` and `HALTED = 0` (10_state.md R23). -/
def State.fgMayStep (s : State) : Bool := s.tc.isNone && !s.halted

/-- The foreground can step: an operation is in flight and no condition of 10_state.md R23 holds it. -/
def State.fgCanStep (s : State) : Bool := s.fgMayStep && decide (s.fg ≠ .idle)

/-- The trap context can step: it is active in a block that is not halted (10_state.md R23). -/
def State.tcCanStep (s : State) : Bool := s.tc.isSome && !s.halted

/-- The register port answers only when `FG = idle`, `TC = none` and `HALTED = 0` (20_memory.md R98). -/
def State.portFree (s : State) : Bool := decide (s.fg = .idle) && s.tc.isNone && !s.halted

/-- The state a trap before `VEC.INIT` leads to: `HALTED = 1`, `ERR = 3` (41_vector_dispatch.md R164). -/
def State.unarmedHalt (s : State) : Bool := s.halted && s.err == 3

end Sys2Proof.Machine
end

