-- ==== Sys2Proof/Machine/Ops.lean ====
section
/-!
DEFINITION. The operations the meanings share: register reads and writes (20_memory.md R74 to R92), the launch of an
operation (R86), its completion, the report (10_state.md R44), and the taking of a trap, its terminal and IRQ
entries and the return from it (41_vector_dispatch.md R163 to R169; 60_exceptions.md R229 to R233).
-/

namespace Sys2Proof.Machine

/-! ### Register accesses -/

/-- A fresh free word (20_memory.md R74; 93_implementation_defined.md U2). Log entry 4. -/
def State.drawWord (s : State) : Word × State :=
  (Config.freeWord s.env.draws, { s with env := { s.env with draws := s.env.draws + 1 } })

/-- Read of `MBX_DATA`: pops `IN`; an empty `IN` stays empty and the value is any word (20_memory.md R74). -/
def readMbxData (s : State) : Word × State :=
  match s.inb with
  | w :: rest => (w, { s with inb := rest })
  | [] => s.drawWord

/-- A register without a read side effect shows its value (20_memory.md R99). -/
def shows (v : Word) (s : State) : Word × State := (v, s)

/-- `RegRead` (00_scope.md R7): one atomic read with the side effect 20_memory.md gives the register, R74 to R92; a
reserved slot reads 0 (R73). -/
def regRead (r : Reg) (s : State) : Word × State :=
  match r with
  | .mbxData => readMbxData s
  | .mbxStatus => shows s.mbxStatus s
  | .icgEnable => shows s.enable s
  | .icgPending => shows s.pending s
  | .tmrCounter => shows s.counter s
  | .tmrCompare => shows s.compare s
  | .tmrMatch => shows (flagBit s.matchFlag 0) s
  | .tmrDeadline => shows s.nextDeadline s
  | .tmrInterval => shows s.par.interval s
  | .opArg0 => shows s.arg0 s
  | .opArg1 => shows s.arg1 s
  | .opCmd => shows s.lastCmd s
  | .opResult => shows s.result s
  | .opStatus => shows s.opStatus s
  | .evdRoute => shows evdRouteWord s
  | .rptInfo => shows s.rptInfo s
  | .rptVal0 => shows s.rptVal0 s
  | .rptVal1 => shows s.rptVal1 s
  | .rptCount => shows s.rptCount s
  | .icgRoute0 => shows (timerBit s.par) s
  | .reserved => shows 0 s

/-- Write of `MBX_DATA`: pushes `OUT`; a word written while `OUT` is full is dropped (20_memory.md R75). -/
def writeMbxData (w : Word) (s : State) : State :=
  if s.out.length < s.par.mbxDepth then { s with out := s.out ++ [w] } else s

/-- Write of `TMR_COMPARE`: replaces the compare value and arms (20_memory.md R83). -/
def writeTmrCompare (w : Word) (s : State) : State := { s with compare := w, tmrArmed := true }

/-- Write of `TMR_MATCH`: bit 0 set clears `MATCH`, else nothing (20_memory.md R84). -/
def writeTmrMatch (w : Word) (s : State) : State :=
  if w.getLsbD 0 then { s with matchFlag := false } else s

/-- The record of an operation just launched, operands latched (20_memory.md R86, 30_encoding.md R103). -/
def launchRecord (i : Instr) (s : State) : FgRecord :=
  { instr := i, a0 := s.arg0, a1 := s.arg1, step := .s1, n := 0, t := 0 }

/-- Write of `OP_CMD`: `LAST_CMD` takes the word; a legal word launches its operation, an illegal one sets `ERR` to
1 and does nothing else (20_memory.md R86, 30_encoding.md R108). -/
def writeOpCmd (w : Word) (s : State) : State :=
  match decode w with
  | .legal i => { s with lastCmd := w, fg := .busy (launchRecord i s) }
  | .illegal _ => { s with lastCmd := w, err := 1 }

/-- `RegWrite` (00_scope.md R7). A write of a read-only register or of a reserved slot is ignored
(20_memory.md R73). -/
def regWrite (r : Reg) (w : Word) (s : State) : State :=
  match r with
  | .mbxData => writeMbxData w s
  | .icgEnable => { s with enable := w }
  | .tmrCompare => writeTmrCompare w s
  | .tmrMatch => writeTmrMatch w s
  | .opArg0 => { s with arg0 := w }
  | .opArg1 => { s with arg1 := w }
  | .opCmd => writeOpCmd w s
  | .mbxStatus => s
  | .icgPending => s
  | .tmrCounter => s
  | .tmrDeadline => s
  | .tmrInterval => s
  | .opResult => s
  | .opStatus => s
  | .evdRoute => s
  | .rptInfo => s
  | .rptVal0 => s
  | .rptVal1 => s
  | .rptCount => s
  | .icgRoute0 => s
  | .reserved => s

/-! ### The foreground's micro-steps -/

/-- The foreground's next micro-step is `next`, in the record `r` (10_state.md R23). -/
def State.goto (r : FgRecord) (next : FgLabel) (s : State) : State :=
  { s with fg := .busy { r with step := next } }

/-- `done` with a completion code: the operation ends (00_scope.md R7, 10_state.md R22). -/
def State.finish (code : BitVec 4) (s : State) : State := { s with fg := .idle, err := code }

/-- One micro-step of the operation `i`, `body` in the record in flight. `FG` does not step while `TC` is active or
`HALTED = 1` (10_state.md R23): the state stays as it is. From an idle foreground the operation is launched with the
operands of this instant (20_memory.md R86) and takes its first micro-step. Log entry 11. -/
def microStep (i : Instr) (body : FgRecord → Answer) (s : State) : Answer :=
  if s.fgMayStep then
    match s.fg with
    | .idle => body (launchRecord i s)
    | .busy r => if r.instr = i then body r else .fault .notInFlight
  else .next s

/-! ### Reports (10_state.md R44, 30_encoding.md R112) -/

/-- `RPT_INFO`: bits 3:0 the tag, bits 7:4 the kind, the rest 0 (R44). -/
def Report.info (rec : Report) : Word := (rec.kind ++ rec.tag : BitVec 8).setWidth 32

/-- `Emit(rec)`, atomically (R44). -/
def State.emit (rec : Report) (s : State) : State :=
  { s with
    diag := s.diag ++ [rec]
    rptInfo := Report.info rec
    rptVal0 := rec.v0
    rptVal1 := rec.v1
    rptCount := s.rptCount + 1 }

/-- A `FATAL_TRAP` record (R112). -/
def fatalReport (tag : Tag) (syn far : Word) : Report := { kind := 1, tag := tag, v0 := syn, v1 := far }

/-- An `UNRECOGNIZED_PENDING` record (R112). -/
def pendingReport (pending : Word) : Report := { kind := 2, tag := irqTag, v0 := pending, v1 := 0 }

/-! ### Taking a trap and returning from it -/

/-- The record of a trap just presented (60_exceptions.md R229). -/
def trapRecord (tag : Tag) (syn far : Word) : TcRecord :=
  { tag := tag, syn := syn, far := far, step := .t0, t := 0 }

/-- Taking a trap, the one operation all of them share: `TC <- {tag, syn, far, step = T0, t = 0}` and nothing else.
Nothing is saved, no address is computed: control goes to step `T0` (60_exceptions.md R229, R230). -/
def takeTrap (tag : Tag) (syn far : Word) (s : State) : State :=
  { s with tc := some (trapRecord tag syn far) }

/-- The trap context's next micro-step is `next`, in the record `r` (10_state.md R23). -/
def State.tcGoto (r : TcRecord) (next : TcLabel) (s : State) : State :=
  { s with tc := some { r with step := next } }

/-- The entry before `VEC.INIT`: `HALTED <- 1`, `ERR <- 3`, no record (41_vector_dispatch.md R164). -/
def unarmedEntry (s : State) : State := { s with halted := true, err := 3 }

/-- The terminal entry, `raise Fatal(tag, syn, far)`: one record, `HALTED <- 1` (41_vector_dispatch.md R165). -/
def fatalEntry (tag : Tag) (syn far : Word) (s : State) : State :=
  { s.emit (fatalReport tag syn far) with halted := true }

/-- The IRQ entry: `IN_IRQ <- 1`, on to `T1` (41_vector_dispatch.md R166). -/
def irqEntry (r : TcRecord) (s : State) : State := ({ s with inIrq := true } : State).tcGoto r .t1

/-- The return: `IN_IRQ <- 0`, `TC <- none`; nothing is restored because nothing was changed
(41_vector_dispatch.md R169, 60_exceptions.md R233). -/
def trapReturn (s : State) : State := { s with inIrq := false, tc := none }

end Sys2Proof.Machine
end

