-- ==== Sys2Proof/Machine/Gate.lean ====
section
/-!
DEFINITION. The interrupt controller gate (42_irq_gate.md): `ICG.ENABLE`, `IRQ.UNMASK`, the external lines
(60_exceptions.md R221) and the acceptance of the interrupt (60_exceptions.md R224).
-/

namespace Sys2Proof.Machine

/-- The micro-step of `ICG.ENABLE line`: one atomic read-modify-write (42_irq_gate.md R181). -/
def enableStep (line : Line) (s : State) (r : FgRecord) : Answer :=
  match r.step with
  | .s1 => .next (({ s with enable := s.enable ||| lineMask line } : State).finish 0)
  | .s2 => .fault .strayLabel
  | .s3 => .fault .strayLabel

/-- `ICG.ENABLE line` (42_irq_gate.md R181). -/
def execIcgEnable (line : Line) (s : State) : Answer := microStep (.icgEnable line) (enableStep line s) s

/-- The micro-step of `IRQ.UNMASK` (42_irq_gate.md R184). -/
def unmaskStep (s : State) (r : FgRecord) : Answer :=
  match r.step with
  | .s1 => .next (({ s with gie := true } : State).finish 0)
  | .s2 => .fault .strayLabel
  | .s3 => .fault .strayLabel

/-- `IRQ.UNMASK` (42_irq_gate.md R184). -/
def execIrqUnmask (s : State) : Answer := microStep .irqUnmask (unmaskStep s) s

/-- A change of the external lines (60_exceptions.md R221): not latched, not filtered. -/
def setExt (w : Word) (s : State) : State := { s with ext := w }

/-- Acceptance, where the conditions of 60_exceptions.md R224 hold: `TRAP(IRQ_TAG, 0, 0)`; where they do not, the
core does not accept. -/
def acceptIrq (s : State) : State := if s.irqAcceptable then takeTrap irqTag 0 0 s else s

end Sys2Proof.Machine
end

