-- ==== Sys2Proof/Machine/Mailbox.lean ====
section
/-!
DEFINITION. The mailbox channel controller (40_mailbox.md): `MBX.SEND`, `MBX.RECV`, and the co-processor's side of
the two FIFOs (60_exceptions.md R240).
-/

namespace Sys2Proof.Machine

/-- The micro-steps of `MBX.SEND ch` (40_mailbox.md R141). The poll is unbounded (R142). -/
def sendStep (ch : Channel) (s : State) (r : FgRecord) : Answer :=
  match r.step with
  | .s1 =>
    let t := (regRead .mbxStatus s).1
    .next (s.goto { r with t := t } (if t.getLsbD 31 then .s1 else .s2))
  | .s2 => .next ((regWrite .mbxData (taggedWord ch r.a0) s).finish 0)
  | .s3 => .fault .strayLabel

/-- `MBX.SEND ch` (40_mailbox.md R141): its next micro-step. -/
def execMbxSend (ch : Channel) (s : State) : Answer := microStep (.mbxSend ch) (sendStep ch s) s

/-- `S1` of `MBX.RECV` (40_mailbox.md R143): the bound test, then one poll iteration. -/
def recvPoll (s : State) (r : FgRecord) : State :=
  if r.n = r.a0 then ({ s with result := recvSentinel } : State).finish 2
  else
    let t := (regRead .mbxStatus s).1
    s.goto { r with n := r.n + 1, t := t } (if t = 0 then .s1 else .s2)

/-- `S2` of `MBX.RECV ch` (40_mailbox.md R143): read a word; the awaited channel's payload is the result, a word of
another channel is lost (R144). -/
def recvTake (ch : Channel) (s : State) (r : FgRecord) : State :=
  let p := regRead .mbxData s
  if channelOf p.1 = ch then ({ p.2 with result := payloadOf p.1 } : State).finish 0
  else p.2.goto { r with t := p.1 } .s1

/-- The micro-steps of `MBX.RECV ch` (40_mailbox.md R143). -/
def recvStep (ch : Channel) (s : State) (r : FgRecord) : Answer :=
  match r.step with
  | .s1 => .next (recvPoll s r)
  | .s2 => .next (recvTake ch s r)
  | .s3 => .fault .strayLabel

/-- `MBX.RECV ch` (40_mailbox.md R143): its next micro-step. -/
def execMbxRecv (ch : Channel) (s : State) : Answer := microStep (.mbxRecv ch) (recvStep ch s) s

/-- The co-processor's *pop*: the head of `OUT`, if there is one (60_exceptions.md R240). -/
def cpPop (s : State) : State :=
  match s.out with
  | w :: rest => { s with out := rest, env := { s.env with cpTaken := some w } }
  | [] => s

/-- The co-processor's *push*: it waits while `IN` is full (60_exceptions.md R240). -/
def cpPush (w : Word) (s : State) : State :=
  if s.inb.length < s.par.mbxDepth then { s with inb := s.inb ++ [w] } else s

end Sys2Proof.Machine
end

