-- ==== Sys2Proof/Machine/Timer.lean ====
section
/-!
DEFINITION. The timer compare-and-reload engine (43_timer.md): `TMR.INIT`, the steps of `TMR.FIRE`, the tick.
-/

namespace Sys2Proof.Machine

/-- The micro-steps of `TMR.INIT` (43_timer.md R196). -/
def initStep (s : State) (r : FgRecord) : Answer :=
  match r.step with
  | .s1 => .next (s.goto { r with t := (regRead .tmrCounter s).1 } .s2)
  | .s2 =>
    let t := r.t + s.par.interval
    .next ((regWrite .tmrCompare t s).goto { r with t := t } .s3)
  | .s3 => .next (({ s with nextDeadline := r.t } : State).finish 0)

/-- `TMR.INIT` (43_timer.md R196): its next micro-step. -/
def execTmrInit (s : State) : Answer := microStep .tmrInit (initStep s) s

/-- `F1` of `TMR.FIRE`: the deadline advances by the interval (43_timer.md R199). -/
def fireAdvance (s : State) : State := { s with nextDeadline := s.nextDeadline + s.par.interval }

/-- `F2` of `TMR.FIRE`: the compare is reprogrammed (43_timer.md R199). -/
def fireReprogram (s : State) : State := regWrite .tmrCompare s.nextDeadline s

/-- `F3` of `TMR.FIRE`: the match is acknowledged, after the reprogramming (43_timer.md R199). -/
def fireAcknowledge (s : State) : State := regWrite .tmrMatch 1 s

/-- The tick step (43_timer.md R204): the comparison uses the counter's new value. -/
def tick (s : State) : State :=
  let c := s.counter + 1
  if s.tmrArmed = true ∧ c = s.compare then
    { s with counter := c, matchFlag := true, tmrArmed := false }
  else { s with counter := c }

end Sys2Proof.Machine
end

