-- ==== Sys2Proof/Machine/Vector.lean ====
section
/-!
DEFINITION. The exception vector dispatcher (41_vector_dispatch.md): `VEC.INIT`, the start of `TRAP`, and the trap
context's program.
-/

namespace Sys2Proof.Machine

/-- The micro-step of `VEC.INIT` (41_vector_dispatch.md R161). -/
def vecInitStep (s : State) (r : FgRecord) : Answer :=
  match r.step with
  | .s1 => .next (({ s with armed := true } : State).finish 0)
  | .s2 => .fault .strayLabel
  | .s3 => .fault .strayLabel

/-- `VEC.INIT` (41_vector_dispatch.md R161). -/
def execVecInit (s : State) : Answer := microStep .vecInit (vecInitStep s) s

/-- The foreground micro-step of `TRAP tag`: it hands the record to the trap context (41_vector_dispatch.md R162). -/
def trapStart (tag : Tag) (s : State) (r : FgRecord) : Answer :=
  match r.step with
  | .s1 => .next ((takeTrap tag r.a0 r.a1 s).finish 0)
  | .s2 => .fault .strayLabel
  | .s3 => .fault .strayLabel

/-- `TRAP tag` as the host launches it (41_vector_dispatch.md R162); what follows is `trapStep`. -/
def execTrap (tag : Tag) (s : State) : Answer := microStep (.trap tag) (trapStart tag s) s

/-- `T0`: the route of the tag, or the silent halt before `VEC.INIT` (41_vector_dispatch.md R163 to R166). -/
def trapEntry (r : TcRecord) (s : State) : State :=
  if s.armed then
    match vectorRoute r.tag with
    | .fatalReport => fatalEntry r.tag r.syn r.far s
    | .irqDispatch => irqEntry r s
  else unarmedEntry s

/-- `T1`: the pending word is read once and matched whole against the route table (41_vector_dispatch.md R167). -/
def trapMatch (r : TcRecord) (s : State) : State :=
  let t := (regRead .icgPending s).1
  s.tcGoto { r with t := t } (match routeOf s.par t with
    | some .tmrFire => .f1
    | none => .t2)

/-- One micro-step of the trap context (41_vector_dispatch.md R163; F1 to F3: 43_timer.md R199). -/
def trapStep (r : TcRecord) (s : State) : State :=
  match r.step with
  | .t0 => trapEntry r s
  | .t1 => trapMatch r s
  | .t2 => (s.emit (pendingReport r.t)).tcGoto r .t3
  | .f1 => (fireAdvance s).tcGoto r .f2
  | .f2 => (fireReprogram s).tcGoto r .f3
  | .f3 => (fireAcknowledge s).tcGoto r .t3
  | .t3 => trapReturn s

/-- A trap the core presents (60_exceptions.md R217, R229). While `HALTED = 1` the trap interface is dead (R235).
The IRQ tag is presented only as an acceptance (R217, R224). Log entry 16. -/
def presentTrap (tag : Tag) (syn far : Word) (s : State) : State :=
  if tag = irqTag then (if s.irqAcceptable then takeTrap irqTag 0 0 s else s)
  else if s.halted then s
  else takeTrap tag syn far s

end Sys2Proof.Machine
end

