-- ==== Sys2Proof/Machine/Dispatch.lean ====
section
/-!
DEFINITION. One arm per operation: the meaning each constructor of `Instr` has. `exec i s` is the next micro-step of
operation `i` (30_encoding.md R104; 10_state.md R23).
-/

namespace Sys2Proof.Machine

def exec (i : Instr) (s : State) : Host.Outcome State Fault Refusal :=
  match i with
  | .vecInit => Sys2Proof.Machine.execVecInit s
  | .tmrInit => Sys2Proof.Machine.execTmrInit s
  | .icgEnable line => Sys2Proof.Machine.execIcgEnable line s
  | .irqUnmask => Sys2Proof.Machine.execIrqUnmask s
  | .mbxSend ch => Sys2Proof.Machine.execMbxSend ch s
  | .mbxRecv ch => Sys2Proof.Machine.execMbxRecv ch s
  | .trap tag => Sys2Proof.Machine.execTrap tag s

end Sys2Proof.Machine
end

