-- ==== Sys2Proof/Machine/Agents.lean ====
section
/-!
DEFINITION. The agents' turns (00_scope.md R8, 60_exceptions.md R241): which agent is next, and what each does with
its turn. A turn at which its agent cannot step leaves the block as it is (log entry 9).
-/

namespace Sys2Proof.Machine

/-- The next turn: the head of the schedule, or, where none is written down, any event
(60_exceptions.md R241). Log entry 1. -/
def nextEvent (s : State) : Event :=
  match s.env.sched with
  | e :: _ => e
  | [] => Config.freeEvent s.env.turns

/-- The state once the turn has been chosen. -/
def takeTurn (s : State) : State :=
  match s.env.sched with
  | _ :: rest => { s with env := { s.env with sched := rest } }
  | [] => { s with env := { s.env with turns := s.env.turns + 1 } }

/-- The foreground's turn (10_state.md R23): the operation in flight takes its next micro-step. -/
def foregroundTurn (s : State) : Answer :=
  match s.fg with
  | .idle => .next s
  | .busy r => exec r.instr s

/-- The trap context's turn (10_state.md R23). A halted block takes no step; the halt of an unarmed trap is a fault
(41_vector_dispatch.md R164; 93_implementation_defined.md U5). Log entry 7. -/
def trapTurn (s : State) : Answer :=
  match s.tc with
  | none => .next s
  | some r =>
    if s.halted then (if s.unarmedHalt then .fault .vecNotArmed else .next s)
    else .next (trapStep r s)

/-- The master puts an access on the port, behind those still held (20_memory.md R93, R98). Log entry 10. -/
def issueAccess (a : Access) (s : State) : State :=
  { s with env := { s.env with hostQueue := s.env.hostQueue ++ [a] } }

/-- The port hands its answer to the master. -/
def State.answer (r : HostReply) (s : State) : State := { s with env := { s.env with hostReply := r } }

/-- The port serves one access (20_memory.md R71, R73 to R92). -/
def serveAccess (a : Access) (s : State) : Answer :=
  match a with
  | .read addr size =>
    match admission s.par addr size with
    | .admitted r => .next ((regRead r s).2.answer (.value (regRead r s).1))
    | .notAdmitted => .refused .accessNotAdmitted
    | .outside => .refused .outsideWindow
  | .write addr size w =>
    match admission s.par addr size with
    | .admitted r => .next ((regWrite r w s).answer .written)
    | .notAdmitted => .refused .accessNotAdmitted
    | .outside => .refused .outsideWindow

/-- The port's turn: it serves the oldest held access when it is free and holds it otherwise
(20_memory.md R98). -/
def hostTurn (s : State) : Answer :=
  match s.env.hostQueue with
  | [] => .next s
  | a :: rest =>
    if s.portFree then serveAccess a { s with env := { s.env with hostQueue := rest } } else .next s

/-- The reset input (70_reset_and_hazards.md R260): every piece of the block's state at the value of 10_state.md
R47; the environment is not reset with the block (R261). Log entry 17. -/
def resetBlock (s : State) : State := State.resetWith s.par s.ext s.env

/-- What an event does (60_exceptions.md R241). -/
def takeEvent (e : Event) (s : State) : Answer :=
  match e with
  | .foreground => foregroundTurn s
  | .trapContext => trapTurn s
  | .issue a => .next (issueAccess a s)
  | .host => hostTurn s
  | .acceptIrq => .next (acceptIrq s)
  | .trap tag syn far => .next (presentTrap tag syn far s)
  | .cpPop => .next (cpPop s)
  | .cpPush w => .next (cpPush w s)
  | .tick => .next (tick s)
  | .setExt w => .next (setExt w s)
  | .reset => .next (resetBlock s)

/-- The state in which the foreground is about to run the operation of the command word `w`: the master has just
written `w` to `OP_CMD` of a free block (20_memory.md R86) and the foreground has the next turn. -/
def launchNext (w : Word) (s : State) : State :=
  let free : State := { s with fg := .idle, tc := none, halted := false }
  let launched := writeOpCmd w free
  { launched with env := { launched.env with sched := .foreground :: launched.env.sched } }

end Sys2Proof.Machine
end

