-- ==== Sys2Proof/Machine/Step.lean ====
section
/-!
DEFINITION. One step of the whole machine: one atomic step of one agent (60_exceptions.md R241).
-/

namespace Sys2Proof.Machine

/-- One atomic step. -/
def step (s : State) : Host.Outcome State Fault Refusal := takeEvent (nextEvent s) (takeTurn s)

/-- `s` with the operation of a command word launched and the foreground's turn next, so that `step` runs its first
micro-step. The block fetches nothing (10_state.md R23): an operation comes to run by the launch of 20_memory.md
R86. Log entry 18. -/
def State.withFetchWord (s : State) (nbits w : Nat) : State :=
  match tableWord nbits w with
  | some c => launchNext c s
  | none => s

end Sys2Proof.Machine
end

