-- ==== Sys2Proof/WellFormed.lean ====
section
/-!
DEFINITION. Source statements of the assembler as written, with operands that may be any number, and the check
the assembler makes of them (30_encoding.md R116, R117, R118).
A term of `Instr` is well formed by its type: its operands are bit vectors of the widths 30_encoding.md R105 gives.
So the checks stand where an ill-formed operand can be written at all, on the statement.
-/

namespace Sys2Proof

/-- One source statement. Operands are the numbers as written, unchecked. -/
inductive Stmt where
  | vecInit
  | tmrInit
  | icgEnable (line : Nat)
  | irqUnmask
  | mbxSend (ch addr : Nat)
  | mbxRecv (ch bound : Nat)
  | trap (tag syn far : Nat)
  /-- `reg.write <offset>, <value>` (R117) -/
  | regWrite (offset value : Nat)
  /-- `reg.read <offset>` (R117) -/
  | regRead (offset : Nat)
  /-- the pseudo-instruction `irq.enable_timer` (R118) -/
  | irqEnableTimer
  /-- the pseudo-instruction `boot` (R118) -/
  | boot
  /-- the pseudo-instruction `mbx.call <ch>, <addr>, <bound>` (R118) -/
  | mbxCall (ch addr bound : Nat)
  | envTick (n : Nat)
  | envCpPop
  | envCpPush (w : Nat)
  | envExt (w : Nat)
  | envIrq
  | envTrap (tag syn far : Nat)
deriving DecidableEq, Repr

/-- An operand fits a word: "any operand that does not fit 32 bits" is refused (30_encoding.md R116). -/
def fitsWord (n : Nat) : Bool := n < 2 ^ 32

/-- A line above 31 is refused (30_encoding.md R116). -/
def lineOk (n : Nat) : Bool := n < 32

/-- A channel or a tag above 15 is refused (30_encoding.md R116). -/
def nibbleOk (n : Nat) : Bool := n < 16

/-- What the assembler accepts (30_encoding.md R116). R116 stands beside the table of the operation statements and does
not say which operands of the statements of R117 and R118 its "any operand that does not fit 32 bits" covers.
DESIGN CHOICE, safe: it covers every operand that becomes a word, and not the `n` of `env.tick`, which is a count of
steps and may be any number. Log entry 23. -/
def Stmt.wf : Stmt → Bool
  | .vecInit => true
  | .tmrInit => true
  | .icgEnable line => lineOk line
  | .irqUnmask => true
  | .mbxSend ch addr => nibbleOk ch && fitsWord addr
  | .mbxRecv ch bound => nibbleOk ch && fitsWord bound
  | .trap tag syn far => nibbleOk tag && fitsWord syn && fitsWord far
  | .regWrite offset value => fitsWord offset && fitsWord value
  | .regRead offset => fitsWord offset
  | .irqEnableTimer => true
  | .boot => true
  | .mbxCall ch addr bound => nibbleOk ch && fitsWord addr && fitsWord bound
  | .envTick _ => true
  | .envCpPop => true
  | .envCpPush w => fitsWord w
  | .envExt w => fitsWord w
  | .envIrq => true
  | .envTrap tag syn far => nibbleOk tag && fitsWord syn && fitsWord far

end Sys2Proof
end

