-- ==== Sys2Proof/Machine/Assembler.lean ====
section
/-!
DEFINITION. The assembler (30_encoding.md R116 to R118): a statement becomes register-port writes in the order
written, ending with the write of `OP_CMD`; an environment statement assembles to nothing and scripts the agents.
-/

namespace Sys2Proof.Machine

/-- The slot of a register in the window; the map of 20_memory.md R70 read backwards. -/
def slotOfReg (r : Reg) : Nat := regMap.idxOf r

/-- The byte address of a register (20_memory.md R70). -/
def regAddr (p : Params) (r : Reg) : Nat := p.blockBase + 4 * slotOfReg r

/-- One `RegWrite` by name (00_scope.md R7). -/
def writeTo (p : Params) (r : Reg) (v : Word) : Access := .write (regAddr p r) .word v

/-- The operation a statement launches, with the operand registers it writes before the launch
(30_encoding.md R116). -/
def Stmt.operation : Stmt → Option (Instr × List (Reg × Nat))
  | .vecInit => some (.vecInit, [])
  | .tmrInit => some (.tmrInit, [])
  | .icgEnable line => some (.icgEnable (BitVec.ofNat 5 line), [])
  | .irqUnmask => some (.irqUnmask, [])
  | .mbxSend ch addr => some (.mbxSend (BitVec.ofNat 4 ch), [(.opArg0, addr)])
  | .mbxRecv ch bound => some (.mbxRecv (BitVec.ofNat 4 ch), [(.opArg0, bound)])
  | .trap tag syn far => some (.trap (BitVec.ofNat 4 tag), [(.opArg0, syn), (.opArg1, far)])
  | _ => none

/-- The register-port writes of an operation statement, in order (30_encoding.md R116). -/
def launchWrites (p : Params) (i : Instr) (operands : List (Reg × Nat)) : List Access :=
  operands.map (fun x => writeTo p x.1 (BitVec.ofNat 32 x.2)) ++ [writeTo p .opCmd (encode i)]

/-- Pseudo-instructions expand to their statements (30_encoding.md R118); any other statement is itself. -/
def Stmt.expand (p : Params) : Stmt → List Stmt
  | .irqEnableTimer => [.icgEnable p.timerLine.toNat]
  | .boot => [.vecInit, .tmrInit, .icgEnable p.timerLine.toNat, .irqUnmask]
  | .mbxCall ch addr bound => [.mbxSend ch addr, .mbxRecv ch bound]
  | st => [st]

/-- The accesses of one statement that is no pseudo-instruction (30_encoding.md R116, R117). -/
def Stmt.accesses (p : Params) (st : Stmt) : List Access :=
  match st with
  | .regWrite offset value => [.write (p.blockBase + offset) .word (BitVec.ofNat 32 value)]
  | .regRead offset => [.read (p.blockBase + offset) .word]
  | _ =>
    match Stmt.operation st with
    | some (i, operands) => launchWrites p i operands
    | none => []

/-- The assembler: the accesses of a statement, or its refusal (30_encoding.md R116). -/
def assemble (p : Params) (st : Stmt) : Option (List Access) :=
  if st.wf then some ((Stmt.expand p st).flatMap (Stmt.accesses p)) else none

/-- The agents' steps an environment statement scripts (30_encoding.md R118). -/
def Stmt.events : Stmt → List Event
  | .envTick n => List.replicate n .tick
  | .envCpPop => [.cpPop]
  | .envCpPush w => [.cpPush (BitVec.ofNat 32 w)]
  | .envExt w => [.setExt (BitVec.ofNat 32 w)]
  | .envIrq => [.acceptIrq]
  | .envTrap tag syn far => [.trap (BitVec.ofNat 4 tag) (BitVec.ofNat 32 syn) (BitVec.ofNat 32 far)]
  | _ => []

end Sys2Proof.Machine
end

