-- ==== Sys2Proof/Machine/Report.lean ====
section
/-!
DEFINITION. The text line a report record stands for on the diagnostic port (30_encoding.md R111, R113): a function
of the record, never read by the block (10_state.md R43).
-/

namespace Sys2Proof.Machine

/-- One upper-case hexadecimal digit. -/
def hexDigit (d : Nat) : Char :=
  if d < 10 then Char.ofNat (48 + d) else Char.ofNat (55 + d)

/-- `hex8(v)`: 8 upper-case hexadecimal characters, high digit first (00_scope.md R6). -/
def hex8 (v : Word) : String :=
  String.ofList ([7, 6, 5, 4, 3, 2, 1, 0].map fun k => hexDigit (v.toNat / 16 ^ k % 16))

/-- The fixed string of the non-fatal report (30_encoding.md R111). -/
def unrecognizedIrq : String := "UNRECOGNIZED_IRQ"

/-- The text line of a record (30_encoding.md R113); kinds other than 1 and 2 are never emitted and have none
(R112). -/
def Report.text (rec : Report) : Option String :=
  match rec.kind.toNat with
  | 1 => some (vectorLabel rec.tag ++ " SYN=0x" ++ hex8 rec.v0 ++ " ADDR=0x" ++ hex8 rec.v1)
  | 2 => some (unrecognizedIrq ++ " PENDING=0x" ++ hex8 rec.v0)
  | _ => none

/-- A tag may be written by its label in a `trap` statement (30_encoding.md R116). -/
def tagOfLabel (label : String) : Option Tag :=
  ((List.range 16).map (BitVec.ofNat 4)).find? fun tag => vectorLabel tag == label

end Sys2Proof.Machine
end

