-- ==== Sys2Proof/Safety.lean ====
section
/-!
DEFINITION. The terms the claims use: an operation in flight, runs of one context and of the whole machine, the
invariant of 10_state.md R46 and its companions, the counting of timer fires, and fair runs (60_exceptions.md R225,
R241; 70_reset_and_hazards.md R273).
-/

namespace Sys2Proof.Machine

/-! ### One operation, one context -/

/-- The operation `i` is in flight in the record `r` and the foreground may step (10_state.md R23). -/
structure InFlight (i : Instr) (s : State) (r : FgRecord) : Prop where
  mayStep : s.fgMayStep = true
  busy : s.fg = .busy r
  op : r.instr = i

/-- `k` turns of the foreground with no other agent between them. -/
def foregroundSteps : Nat → State → Answer
  | 0, s => .next s
  | k + 1, s =>
    match foregroundTurn s with
    | .next t => foregroundSteps k t
    | .fault r => .fault r
    | .refused r => .refused r

/-- `k` turns of the trap context with no other agent between them. -/
def trapSteps : Nat → State → Answer
  | 0, s => .next s
  | k + 1, s =>
    match trapTurn s with
    | .next t => trapSteps k t
    | .fault r => .fault r
    | .refused r => .refused r

/-- `k` steps of the whole machine. -/
def runSteps : Nat → State → Answer
  | 0, s => .next s
  | k + 1, s =>
    match step s with
    | .next t => runSteps k t
    | .fault r => .fault r
    | .refused r => .refused r

/-- `k` ticks with no other agent between them. -/
def ticks : Nat → State → State
  | 0, s => s
  | k + 1, s => ticks k (tick s)

/-! ### The invariant -/

/-- The micro-steps an operation has (the pseudocode of 40_mailbox.md R141, R143; 41_vector_dispatch.md R161, R162;
42_irq_gate.md R181, R184; 43_timer.md R196). -/
def hasLabel (i : Instr) (l : FgLabel) : Bool :=
  match i with
  | .vecInit => l = .s1
  | .tmrInit => true
  | .icgEnable _ => l = .s1
  | .irqUnmask => l = .s1
  | .mbxSend _ => l = .s1 || l = .s2
  | .mbxRecv _ => l = .s1 || l = .s2
  | .trap _ => l = .s1

/-- The report registers show the last record of `DIAG`, or zeros (10_state.md R44). -/
def reportsMirrored (s : State) : Prop :=
  match s.diag.getLast? with
  | none => s.rptInfo = 0 ∧ s.rptVal0 = 0 ∧ s.rptVal1 = 0
  | some rec => s.rptInfo = Report.info rec ∧ s.rptVal0 = rec.v0 ∧ s.rptVal1 = rec.v1

/-- A record the block can emit (30_encoding.md R112). -/
def emittable (rec : Report) : Prop := rec.kind = 1 ∨ (rec.kind = 2 ∧ rec.tag = irqTag ∧ rec.v1 = 0)

/-- How many fatal records a stream holds. -/
def fatalCount (d : List Report) : Nat := d.countP fun rec => rec.kind == 1

/-- What every reachable state keeps (10_state.md R46 and the rules each field names). -/
structure StateInv (s : State) : Prop where
  /-- the parameters stay in the ranges of 00_scope.md R5 -/
  params : s.par.wf = true
  /-- `len(OUT) <= MBX_DEPTH` (R46) -/
  outBound : s.out.length ≤ s.par.mbxDepth
  /-- `len(IN) <= MBX_DEPTH` (R46) -/
  inBound : s.inb.length ≤ s.par.mbxDepth
  /-- the foreground stands at a micro-step its operation has (R23) -/
  label : ∀ r, s.fg = .busy r → hasLabel r.instr r.step = true
  /-- the poll counter does not pass the bound (40_mailbox.md R143; 43_timer.md R202 b) -/
  pollBound : ∀ r ch, s.fg = .busy r → r.instr = .mbxRecv ch → r.n.toNat ≤ r.a0.toNat
  /-- at `S2` of `MBX.SEND` there is room in `OUT` (40_mailbox.md R141 corner b) -/
  sendRoom : ∀ r ch, s.fg = .busy r → r.instr = .mbxSend ch → r.step = .s2 → s.out.length < s.par.mbxDepth
  /-- `IN_IRQ = 1` implies `TC != none` (R46) -/
  irqContext : s.inIrq = true → s.tc.isSome = true
  /-- past `T0` the trap context serves the interrupt (41_vector_dispatch.md R163) -/
  pastEntry : ∀ r, s.tc = some r → r.step ≠ .t0 →
    s.inIrq = true ∧ r.tag = irqTag ∧ s.armed = true ∧ s.halted = false
  /-- a halted block keeps the trap context at `T0` (41_vector_dispatch.md R165) -/
  haltedFrozen : s.halted = true → ∃ r, s.tc = some r ∧ r.step = .t0
  /-- codes 4 to 15 are never written (R22) -/
  errRange : s.err.toNat ≤ 3
  /-- code 3 is the unarmed halt's alone (R22, 41_vector_dispatch.md R164) -/
  errUnarmed : s.err = 3 ↔ s.halted = true ∧ s.armed = false
  /-- `RPT_COUNT` counts the records modulo 2^32 (R44) -/
  reportCount : s.rptCount = BitVec.ofNat 32 s.diag.length
  /-- the report registers latch the last record (R44) -/
  mirrored : reportsMirrored s
  /-- kinds 0 and 3 to 15 are never emitted (30_encoding.md R112) -/
  kinds : ∀ rec ∈ s.diag, emittable rec
  /-- a fatal record and the halt come together, once (41_vector_dispatch.md R165; 60_exceptions.md R227) -/
  fatalOnce : fatalCount s.diag = if s.halted = true ∧ s.armed = true then 1 else 0

/-! ### Counting along a run -/

/-- The next step is `F1` of `TMR.FIRE` (43_timer.md R199). -/
def isFire (s : State) : Bool :=
  decide (nextEvent s = .trapContext) && !s.halted &&
    match s.tc with
    | some r => decide (r.step = .f1)
    | none => false

/-- The next step gives the deadline a new base: `S3` of `TMR.INIT` (43_timer.md R196), or a reset. -/
def isRebase (s : State) : Bool :=
  decide (nextEvent s = .reset) ||
    (decide (nextEvent s = .foreground) && s.fgMayStep &&
      match s.fg with
      | .busy r => decide (r.instr = .tmrInit) && decide (r.step = .s3)
      | .idle => false)

/-- The fires among the next `k` steps. -/
def fireCount : Nat → State → Nat
  | 0, _ => 0
  | k + 1, s =>
    (if isFire s then 1 else 0) +
      match step s with
      | .next t => fireCount k t
      | .fault _ => 0
      | .refused _ => 0

/-- Whether one of the next `k` steps gives the deadline a new base. -/
def rebased : Nat → State → Bool
  | 0, _ => false
  | k + 1, s =>
    isRebase s ||
      match step s with
      | .next t => rebased k t
      | .fault _ => false
      | .refused _ => false

/-- The next step is a micro-step of the operation in flight. -/
def isForegroundStep (s : State) : Bool :=
  decide (nextEvent s = .foreground) && s.fgCanStep

/-- The foreground micro-steps among the next `k` steps. -/
def foregroundCount : Nat → State → Nat
  | 0, _ => 0
  | k + 1, s =>
    (if isForegroundStep s then 1 else 0) +
      match step s with
      | .next t => foregroundCount k t
      | .fault _ => 0
      | .refused _ => 0

/-- Whether one of the next `k` steps is a reset. -/
def resetWithin : Nat → State → Bool
  | 0, _ => false
  | k + 1, s =>
    decide (nextEvent s = .reset) ||
      match step s with
      | .next t => resetWithin k t
      | .fault _ => false
      | .refused _ => false

/-- The micro-steps an `MBX.RECV` can still take: each poll iteration is at most two of them, and one more ends it
(40_mailbox.md R143). -/
def recvFuel (r : FgRecord) : Nat :=
  2 * (r.a0 - r.n).toNat + (if r.step = .s2 then 2 else 1)

/-! ### What a trap context does not touch -/

/-- The part of the state the mailbox operations read or write (70_reset_and_hazards.md R270), with the FIFO depth
and the counter their free values are drawn by. -/
structure MailboxPart where
  fg : Foreground
  out : List Word
  inb : List Word
  result : Word
  err : BitVec 4
  depth : Nat
  draws : Nat
deriving DecidableEq, Repr

/-- The mailbox part of a state. -/
def State.mailboxPart (s : State) : MailboxPart :=
  { fg := s.fg, out := s.out, inb := s.inb, result := s.result, err := s.err,
    depth := s.par.mbxDepth, draws := s.env.draws }

/-! ### Fair runs (60_exceptions.md R225, R241) -/

/-- An infinite run in which the agents' turns come in the order `ε`: no turn of it faults or is refused. `step` takes
such turns off the schedule; a finite schedule ends, so an infinite order of turns is given apart from the state. -/
def IsRun (ε : Nat → Event) (ρ : Nat → State) : Prop := ∀ k, takeEvent (ε k) (ρ k) = .next (ρ (k + 1))

/-- What holds of the run at infinitely many points. -/
def Recurs (P : Nat → Prop) : Prop := ∀ k, ∃ m, k ≤ m ∧ P m

/-- The fairness of R241 and R225. "A context that can step eventually does": a context that can step at infinitely
many points takes a step at infinitely many points, even where it can not step in between, so that an interrupt
accepted again after every return does not hold the foreground for ever (70_reset_and_hazards.md R273). The tick
source ticks infinitely often. An interrupt whose conditions hold continuously is accepted. Log entry 19. -/
structure FairRun (ε : Nat → Event) (ρ : Nat → State) : Prop where
  isRun : IsRun ε ρ
  foreground : Recurs (fun m => (ρ m).fgCanStep = true) →
    Recurs fun m => ε m = .foreground ∧ (ρ m).fgCanStep = true
  trapContext : Recurs (fun m => (ρ m).tcCanStep = true) →
    Recurs fun m => ε m = .trapContext ∧ (ρ m).tcCanStep = true
  acceptance : Recurs fun m => ε m = .acceptIrq ∨ (ρ m).irqAcceptable = false
  ticks : Recurs fun m => ε m = .tick

end Sys2Proof.Machine
end

