-- ==== Sys2Proof/Certificates/Slice0/Obligations.lean ====
section
/-!
DEFINITION. The statements for the provers. Each docstring names the rule of spec/ it formalises; where a clause is
the model's choice it says so.
-/

open Sys2Proof Sys2Proof.Machine

/-! ### Encoding -/

/-- Every operation has one command word and every legal word one operation (30_encoding.md R102, R104, R105). -/
def Obligations.DecodeExactlyEncode : Prop :=
  ∀ (w : Word) (i : Instr), decode w = .legal i ↔ w = encode i

/-- Which fields each operation is read from, in numbers: `OP = cmd[31:28]`, `SEL = cmd[27:23]`, `ZERO = cmd[22:0]`
(30_encoding.md R102, R105). -/
def Obligations.DecodeReadsFields : Prop :=
  ∀ w : Word,
    let op := w.toNat / 2 ^ 28
    let sel := w.toNat / 2 ^ 23 % 2 ^ 5
    let low := w.toNat % 2 ^ 23
    (decode w = .legal .vecInit ↔ op = 1 ∧ sel = 0 ∧ low = 0) ∧
    (decode w = .legal .tmrInit ↔ op = 2 ∧ sel = 0 ∧ low = 0) ∧
    (∀ line : Line, decode w = .legal (.icgEnable line) ↔ op = 3 ∧ sel = line.toNat ∧ low = 0) ∧
    (decode w = .legal .irqUnmask ↔ op = 4 ∧ sel = 0 ∧ low = 0) ∧
    (∀ ch : Channel, decode w = .legal (.mbxSend ch) ↔ op = 5 ∧ sel = ch.toNat ∧ low = 0) ∧
    (∀ ch : Channel, decode w = .legal (.mbxRecv ch) ↔ op = 6 ∧ sel = ch.toNat ∧ low = 0) ∧
    (∀ tag : Tag, decode w = .legal (.trap tag) ↔ op = 7 ∧ sel = tag.toNat ∧ low = 0)

/-- The illegal words, all of them, and the count of the legal ones: the list 30_encoding.md R107 derives from R102,
R104 and R105. -/
def Obligations.IllegalWordsAreListed : Prop :=
  (∀ w : Word,
    let op := w.toNat / 2 ^ 28
    let sel := w.toNat / 2 ^ 23 % 2 ^ 5
    let low := w.toNat % 2 ^ 23
    (∃ why, decode w = .illegal why) ↔
      (op = 0 ∨ 8 ≤ op) ∨ low ≠ 0 ∨ ((op = 1 ∨ op = 2 ∨ op = 4) ∧ sel ≠ 0) ∨
        ((op = 5 ∨ op = 6 ∨ op = 7) ∧ 16 ≤ sel)) ∧
  (∃ legal : List Word, legal.Nodup ∧ legal.length = 3 + 32 + 3 * 16 ∧
    ∀ w, w ∈ legal ↔ ∃ i, decode w = .legal i)

/-- A word is an operation exactly when `w & mask = match` of its row, and no two rows share a word
(30_encoding.md R104). -/
def Obligations.MatchMaskSelectsOperation : Prop :=
  (∀ (w : Word) (name : String), (∃ i, decode w = .legal i ∧ mnemonic i = name) ↔
    ∃ row ∈ opcodeTable, row.mnemonic = name ∧ w &&& row.mask = row.pattern) ∧
  (∀ w : Word, ∀ row ∈ opcodeTable, ∀ row' ∈ opcodeTable,
    w &&& row.mask = row.pattern → w &&& row'.mask = row'.pattern → row = row') ∧
  opcodeTable =
    [⟨"VEC.INIT", 0x10000000#32, 0xFFFFFFFF#32⟩, ⟨"TMR.INIT", 0x20000000#32, 0xFFFFFFFF#32⟩,
     ⟨"ICG.ENABLE", 0x30000000#32, 0xF07FFFFF#32⟩, ⟨"IRQ.UNMASK", 0x40000000#32, 0xFFFFFFFF#32⟩,
     ⟨"MBX.SEND", 0x50000000#32, 0xF87FFFFF#32⟩, ⟨"MBX.RECV", 0x60000000#32, 0xF87FFFFF#32⟩,
     ⟨"TRAP", 0x70000000#32, 0xF87FFFFF#32⟩]

/-- Words of 95_test_vectors.md 2.1, one of each family, and three illegal ones. -/
def Obligations.VectorWordsDecode : Prop :=
  decode 0x10000000#32 = .legal .vecInit ∧ decode 0x20000000#32 = .legal .tmrInit ∧
  decode 0x3F800000#32 = .legal (.icgEnable 31) ∧ decode 0x40000000#32 = .legal .irqUnmask ∧
  decode 0x50800000#32 = .legal (.mbxSend 1) ∧ decode 0x67800000#32 = .legal (.mbxRecv 15) ∧
  decode 0x76800000#32 = .legal (.trap 13) ∧
  decode 0x00000000#32 = .illegal .reservedOpcode ∧ decode 0x10000001#32 = .illegal .mustBeZero ∧
  decode 0x58000000#32 = .illegal .selectorTooWide

/-- Each operation statement assembles to its register writes, in order, and the assembler refuses an operand out of
range (30_encoding.md R116). -/
def Obligations.AssemblerWrites : Prop :=
  ∀ (p : Params) (a b c : Nat), a < 2 ^ 32 → b < 2 ^ 32 →
    let at' := fun (off : Nat) (v : Word) => Access.write (p.blockBase + off) .word v
    assemble p .vecInit = some [at' 0x2C 0x10000000#32] ∧
    assemble p .tmrInit = some [at' 0x2C 0x20000000#32] ∧
    assemble p .irqUnmask = some [at' 0x2C 0x40000000#32] ∧
    (c < 32 → assemble p (.icgEnable c) = some [at' 0x2C (BitVec.ofNat 32 (0x30000000 + c * 2 ^ 23))]) ∧
    (c < 16 → assemble p (.mbxSend c a) =
      some [at' 0x24 (BitVec.ofNat 32 a), at' 0x2C (BitVec.ofNat 32 (0x50000000 + c * 2 ^ 23))]) ∧
    (c < 16 → assemble p (.mbxRecv c a) =
      some [at' 0x24 (BitVec.ofNat 32 a), at' 0x2C (BitVec.ofNat 32 (0x60000000 + c * 2 ^ 23))]) ∧
    (c < 16 → assemble p (.trap c a b) =
      some [at' 0x24 (BitVec.ofNat 32 a), at' 0x28 (BitVec.ofNat 32 b),
        at' 0x2C (BitVec.ofNat 32 (0x70000000 + c * 2 ^ 23))]) ∧
    (32 ≤ c → assemble p (.icgEnable c) = none) ∧
    (16 ≤ c → assemble p (.mbxSend c a) = none ∧ assemble p (.mbxRecv c a) = none ∧
      assemble p (.trap c a b) = none) ∧
    (2 ^ 32 ≤ c → assemble p (.mbxSend 0 c) = none ∧ assemble p (.mbxRecv 0 c) = none ∧
      assemble p (.trap 0 c b) = none ∧ assemble p (.trap 0 a c) = none)

/-- The pseudo-instructions assemble to what they stand for, a bus statement to its one access, and an environment
statement to nothing; it scripts its agent's steps instead (30_encoding.md R117, R118). That `env.tick` takes any
count, and that the other environment operands are held to 32 bits, is the model's choice (log entry 23). -/
def Obligations.PseudoInstructionsExpand : Prop :=
  ∀ (p : Params) (a b c : Nat),
    (assemble p .irqEnableTimer = assemble p (.icgEnable p.timerLine.toNat)) ∧
    (∀ v t e u, assemble p .vecInit = some v → assemble p .tmrInit = some t →
      assemble p .irqEnableTimer = some e → assemble p .irqUnmask = some u →
      assemble p .boot = some (v ++ t ++ e ++ u)) ∧
    (∀ x y, assemble p (.mbxSend c a) = some x → assemble p (.mbxRecv c b) = some y →
      assemble p (.mbxCall c a b) = some (x ++ y)) ∧
    (a < 2 ^ 32 → b < 2 ^ 32 →
      assemble p (.regWrite a b) = some [.write (p.blockBase + a) .word (BitVec.ofNat 32 b)] ∧
      assemble p (.regRead a) = some [.read (p.blockBase + a) .word]) ∧
    (assemble p (.envTick a) = some [] ∧ assemble p .envCpPop = some [] ∧ assemble p .envIrq = some []) ∧
    (a < 2 ^ 32 → assemble p (.envCpPush a) = some [] ∧ assemble p (.envExt a) = some []) ∧
    (c < 16 → a < 2 ^ 32 → b < 2 ^ 32 → assemble p (.envTrap c a b) = some []) ∧
    Stmt.events (.envTick a) = List.replicate a .tick ∧
    Stmt.events .envCpPop = [.cpPop] ∧
    Stmt.events (.envCpPush a) = [.cpPush (BitVec.ofNat 32 a)] ∧
    Stmt.events (.envExt a) = [.setExt (BitVec.ofNat 32 a)] ∧
    Stmt.events .envIrq = [.acceptIrq] ∧
    Stmt.events (.envTrap c a b) = [.trap (BitVec.ofNat 4 c) (BitVec.ofNat 32 a) (BitVec.ofNat 32 b)]

/-- The text line of a record: the two examples of 30_encoding.md R113, the line of every fatal record and of every
record of an unrecognized word, and no line for the kinds that are never emitted (R112). -/
def Obligations.ReportTextLines : Prop :=
  Report.text { kind := 1, tag := 0, v0 := 0x96000045#32, v1 := 0x00001234#32 } =
    some "SYNC_LOWER_A32 SYN=0x96000045 ADDR=0x00001234" ∧
  Report.text { kind := 2, tag := 13, v0 := 0x00000008#32, v1 := 0 } =
    some "UNRECOGNIZED_IRQ PENDING=0x00000008" ∧
  (∀ tag syn far, Report.text { kind := 1, tag := tag, v0 := syn, v1 := far } =
    some (vectorLabel tag ++ " SYN=0x" ++ hex8 syn ++ " ADDR=0x" ++ hex8 far)) ∧
  (∀ tag v0 v1, Report.text { kind := 2, tag := tag, v0 := v0, v1 := v1 } =
    some ("UNRECOGNIZED_IRQ PENDING=0x" ++ hex8 v0)) ∧
  (∀ rec : Report, Report.text rec = none ↔ rec.kind ≠ 1 ∧ rec.kind ≠ 2)

/-- The sixteen labels of 30_encoding.md R110, pairwise different. -/
def Obligations.VectorLabelsIdentifyTags : Prop :=
  ((List.range 16).map fun t => vectorLabel (BitVec.ofNat 4 t)) =
    ["SYNC_LOWER_A32", "IRQ_LOWER_A32", "FIQ_LOWER_A32", "SERROR_LOWER_A32",
     "SYNC_LOWER_A64", "IRQ_LOWER_A64", "FIQ_LOWER_A64", "SERROR_LOWER_A64",
     "SYNC_SAME_THREAD", "IRQ_SAME_THREAD", "FIQ_SAME_THREAD", "SERROR_SAME_THREAD",
     "SYNC_SAME_HANDLER", "IRQ_SAME_HANDLER", "FIQ_SAME_HANDLER", "SERROR_SAME_HANDLER"] ∧
  ∀ a b : Tag, vectorLabel a = vectorLabel b → a = b

/-! ### The step and the operations -/

/-- A step is the turn of the agent the schedule names; the foreground's turn runs the next micro-step of the
operation in flight; a launch through the port puts the decoded operation in flight (60_exceptions.md R241;
10_state.md R23, 20_memory.md R86). That a turn is taken off a schedule is the model's choice (log entry 1), as are
the queue the port takes its access from and the reply field it answers in (log entry 10), and what `withFetchWord`
sets (log entry 18). -/
def Obligations.StepRunsDecodedOperation : Prop :=
  (∀ s ev rest, s.env.sched = ev :: rest →
    step s = takeEvent ev { s with env := { s.env with sched := rest } }) ∧
  (∀ s r rest, s.env.sched = .foreground :: rest → s.fg = .busy r →
    step s = exec r.instr { s with env := { s.env with sched := rest } }) ∧
  (∀ s w i rest held, decode w = .legal i → s.env.sched = .host :: rest → s.portFree = true →
    s.par.blockBase % 0x80 = 0 →
    s.env.hostQueue = .write (s.par.blockBase + 0x2C) .word w :: held →
    step s = .next { s with
      lastCmd := w
      fg := .busy { instr := i, a0 := s.arg0, a1 := s.arg1, step := .s1, n := 0, t := 0 }
      env := { s.env with sched := rest, hostQueue := held, hostReply := .written } }) ∧
  (∀ (s : State) (w : Word) i, decode w = .legal i →
    decodeTableWord 32 w.toNat = some i ∧
    step (s.withFetchWord 32 w.toNat) = exec i { s with
      lastCmd := w
      fg := .busy { instr := i, a0 := s.arg0, a1 := s.arg1, step := .s1, n := 0, t := 0 }
      tc := none
      halted := false })

/-- Asked to run an operation on an idle foreground, the model launches it with the operands of that instant and takes
its first micro-step (20_memory.md R86 for the record; that `exec` does both at once is the model's, log entry 11). -/
def Obligations.IdleForegroundLaunches : Prop :=
  ∀ i s, s.fg = .idle → s.tc = none → s.halted = false →
    exec i s = exec i { s with
      fg := .busy { instr := i, a0 := s.arg0, a1 := s.arg1, step := .s1, n := 0, t := 0 } } ∧
    ∃ t, exec i s = .next t

/-- A write of `OP_CMD`: a legal word launches with the operands latched, an illegal one sets `ERR` to 1 and changes
nothing else (20_memory.md R86; 30_encoding.md R103, R108). -/
def Obligations.CommandWriteLaunchesOrRefuses : Prop :=
  ∀ s w,
    (∀ i, decode w = .legal i → regWrite .opCmd w s = { s with
      lastCmd := w
      fg := .busy { instr := i, a0 := s.arg0, a1 := s.arg1, step := .s1, n := 0, t := 0 } }) ∧
    (∀ why, decode w = .illegal why → regWrite .opCmd w s = { s with lastCmd := w, err := 1 })

/-- `VEC.INIT` (41_vector_dispatch.md R161). -/
def Obligations.VecInitArms : Prop :=
  ∀ s r, InFlight .vecInit s r → r.step = .s1 →
    exec .vecInit s = .next { s with armed := true, err := 0, fg := .idle }

/-- `ICG.ENABLE` sets one bit and keeps the others, and in the same instant `PENDING[line]` becomes `RAW[line]`
(42_irq_gate.md R181). -/
def Obligations.IcgEnableSetsOneLine : Prop :=
  ∀ s r line, InFlight (.icgEnable line) s r → r.step = .s1 →
    ∃ t, exec (.icgEnable line) s = .next t ∧
      t = { s with enable := s.enable ||| (1#32 <<< line.toNat), err := 0, fg := .idle } ∧
      (∀ k < 32, t.enable.getLsbD k = (s.enable.getLsbD k || decide (k = line.toNat))) ∧
      (∀ k < 32, t.pending.getLsbD k = if k = line.toNat then s.raw.getLsbD k else s.pending.getLsbD k)

/-- `IRQ.UNMASK` (42_irq_gate.md R184). -/
def Obligations.IrqUnmaskSetsGie : Prop :=
  ∀ s r, InFlight .irqUnmask s r → r.step = .s1 →
    exec .irqUnmask s = .next { s with gie := true, err := 0, fg := .idle }

/-- `MBX.SEND`: the poll looks at `OUT_FULL` alone, the write appends the tagged word (40_mailbox.md R141). -/
def Obligations.MbxSendMicroSteps : Prop :=
  (∀ s r ch, InFlight (.mbxSend ch) s r → r.step = .s1 →
    exec (.mbxSend ch) s = .next { s with
      fg := .busy { r with
        t := s.mbxStatus
        step := if s.out.length = s.par.mbxDepth then .s1 else .s2 } }) ∧
  (∀ s r ch, InFlight (.mbxSend ch) s r → r.step = .s2 → s.out.length < s.par.mbxDepth →
    exec (.mbxSend ch) s = .next { s with
      out := s.out ++ [(r.a0 &&& 0xFFFFFFF0#32) ||| ch.setWidth 32]
      err := 0
      fg := .idle }) ∧
  (∀ s r ch, InFlight (.mbxSend ch) s r → r.step = .s2 → s.par.mbxDepth ≤ s.out.length →
    exec (.mbxSend ch) s = .next { s with err := 0, fg := .idle })

/-- While `OUT` is full a send stays at its poll, whatever agent steps, unless the co-processor pops or the block is
reset (40_mailbox.md R142). -/
def Obligations.SendWaitsForPop : Prop :=
  ∀ s t r ch, s.fg = .busy r → r.instr = .mbxSend ch → r.step = .s1 → s.out.length = s.par.mbxDepth →
    nextEvent s ≠ .cpPop → nextEvent s ≠ .reset → step s = .next t →
    t.out = s.out ∧ t.par = s.par ∧
      ∃ r', t.fg = .busy r' ∧ r'.instr = .mbxSend ch ∧ r'.step = .s1 ∧ r'.a0 = r.a0

/-- `MBX.RECV`: the bound test before the poll, the whole-word empty test, the pop, the payload or the loss of the
word; an empty `IN` read gives any word (40_mailbox.md R143, R144; 20_memory.md R74). That the word is
`Config.freeWord` of the count of draws, and that each draw advances the count, is the model's (log entries 4, 5). -/
def Obligations.MbxRecvMicroSteps : Prop :=
  (∀ s r ch, InFlight (.mbxRecv ch) s r → r.step = .s1 → r.n = r.a0 →
    exec (.mbxRecv ch) s = .next { s with result := 0xFFFFFFFF#32, err := 2, fg := .idle }) ∧
  (∀ s r ch, InFlight (.mbxRecv ch) s r → r.step = .s1 → r.n ≠ r.a0 →
    exec (.mbxRecv ch) s = .next { s with
      fg := .busy { r with
        n := r.n + 1
        t := s.mbxStatus
        step := if s.inb = [] ∧ s.out.length ≠ s.par.mbxDepth then .s1 else .s2 } }) ∧
  (∀ s r ch w rest, InFlight (.mbxRecv ch) s r → r.step = .s2 → s.inb = w :: rest →
    (w.extractLsb' 0 4 = ch →
      exec (.mbxRecv ch) s = .next { s with
        inb := rest, result := w &&& 0xFFFFFFF0#32, err := 0, fg := .idle }) ∧
    (w.extractLsb' 0 4 ≠ ch →
      exec (.mbxRecv ch) s = .next { s with inb := rest, fg := .busy { r with t := w, step := .s1 } })) ∧
  (∀ s r ch, InFlight (.mbxRecv ch) s r → r.step = .s2 → s.inb = [] →
    ∀ w, w = Config.freeWord s.env.draws →
    (w.extractLsb' 0 4 = ch →
      exec (.mbxRecv ch) s = .next { s with
        result := w &&& 0xFFFFFFF0#32, err := 0, fg := .idle
        env := { s.env with draws := s.env.draws + 1 } }) ∧
    (w.extractLsb' 0 4 ≠ ch →
      exec (.mbxRecv ch) s = .next { s with
        fg := .busy { r with t := w, step := .s1 }
        env := { s.env with draws := s.env.draws + 1 } }))

/-- A payload is never the sentinel: what a receive answers is told apart by `RESULT` alone as well as by `ERR`
(40_mailbox.md R143 corner b). -/
def Obligations.RecvPayloadIsNeverSentinel : Prop :=
  ∀ s t r ch, InFlight (.mbxRecv ch) s r → exec (.mbxRecv ch) s = .next t → t.fg = .idle →
    (t.err = 0 ∨ t.err = 2) ∧ (t.result = 0xFFFFFFFF#32 ↔ t.err = 2) ∧
      (t.err = 0 → t.result.extractLsb' 0 4 = 0#4)

/-- A receive always completes: after as many foreground micro-steps as its bound allows, whatever the other agents
did between them, it has ended with the sentinel or with a payload (40_mailbox.md R143). -/
def Obligations.RecvCompletesWithinBound : Prop :=
  ∀ k s t r ch, s.fg = .busy r → r.instr = .mbxRecv ch → hasLabel r.instr r.step = true →
    resetWithin k s = false → runSteps k s = .next t → recvFuel r ≤ foregroundCount k s →
    ∃ j u, j ≤ k ∧ runSteps j s = .next u ∧ u.fg = .idle ∧
      (u.err = 2 ∧ u.result = 0xFFFFFFFF#32 ∨ u.err = 0 ∧ u.result.extractLsb' 0 4 = 0#4)

/-- `TMR.INIT`: its three micro-steps, and the whole where no agent steps between them (43_timer.md R196). -/
def Obligations.TmrInitMicroSteps : Prop :=
  (∀ s r, InFlight .tmrInit s r → r.step = .s1 →
    exec .tmrInit s = .next { s with fg := .busy { r with t := s.counter, step := .s2 } }) ∧
  (∀ s r, InFlight .tmrInit s r → r.step = .s2 →
    exec .tmrInit s = .next { s with
      compare := r.t + s.par.interval
      tmrArmed := true
      fg := .busy { r with t := r.t + s.par.interval, step := .s3 } }) ∧
  (∀ s r, InFlight .tmrInit s r → r.step = .s3 →
    exec .tmrInit s = .next { s with nextDeadline := r.t, err := 0, fg := .idle }) ∧
  (∀ s r, InFlight .tmrInit s r → r.step = .s1 →
    foregroundSteps 3 s = .next { s with
      compare := s.counter + s.par.interval
      tmrArmed := true
      nextDeadline := s.counter + s.par.interval
      err := 0
      fg := .idle })

/-- `TRAP` as launched: the record goes to the trap context, `ERR <- 0` (41_vector_dispatch.md R162). -/
def Obligations.TrapStartsContext : Prop :=
  ∀ s r tag, InFlight (.trap tag) s r → r.step = .s1 →
    exec (.trap tag) s = .next { s with
      tc := some { tag := tag, syn := r.a0, far := r.a1, step := .t0, t := 0 }
      err := 0
      fg := .idle }

/-- Where the foreground may not step (`TC != none` or `HALTED = 1`, 10_state.md R23), no operation does anything.
R23 says only that it may not step: that `exec` then answers the same state is the model's choice (log entry 9). -/
def Obligations.BlockedForegroundStandsStill : Prop :=
  ∀ i s, s.tc ≠ none ∨ s.halted = true → exec i s = .next s

/-- An operation in flight answers a next state at every micro-step its pseudocode has; a label it does not have, and
an operation other than the one in flight, are the model's two internal faults (log entries 11, 12). -/
def Obligations.OperationsAnswerAtTheirLabels : Prop :=
  ∀ i s r, s.fgMayStep = true → s.fg = .busy r →
    (r.instr = i → hasLabel i r.step = true → ∃ t, exec i s = .next t) ∧
    (r.instr = i → hasLabel i r.step = false → exec i s = .fault .strayLabel) ∧
    (r.instr ≠ i → exec i s = .fault .notInFlight)

/-- The frame of the foreground: what each operation leaves unchanged, in every state (10_state.md R20 to R44 name
who writes each register; the pseudocode of each operation rule). `FG` and `ERR` are every operation's. The count of
drawn free words is the model's own field (log entry 5), and a turn the foreground cannot use changes nothing (log
entry 9). -/
def Obligations.OperationFrame : Prop :=
  ∀ i s t, exec i s = .next t →
    (t.par = s.par ∧ t.arg0 = s.arg0 ∧ t.arg1 = s.arg1 ∧ t.lastCmd = s.lastCmd ∧ t.inIrq = s.inIrq ∧
      t.halted = s.halted ∧ t.matchFlag = s.matchFlag ∧ t.ext = s.ext ∧ t.counter = s.counter ∧
      t.diag = s.diag ∧ t.rptInfo = s.rptInfo ∧ t.rptVal0 = s.rptVal0 ∧ t.rptVal1 = s.rptVal1 ∧
      t.rptCount = s.rptCount) ∧
    (i ≠ .vecInit → t.armed = s.armed) ∧
    (i ≠ .irqUnmask → t.gie = s.gie) ∧
    ((∀ line, i ≠ .icgEnable line) → t.enable = s.enable) ∧
    (i ≠ .tmrInit → t.compare = s.compare ∧ t.tmrArmed = s.tmrArmed ∧ t.nextDeadline = s.nextDeadline) ∧
    ((∀ ch, i ≠ .mbxSend ch) → t.out = s.out) ∧
    ((∀ ch, i ≠ .mbxRecv ch) → t.inb = s.inb ∧ t.result = s.result ∧ t.env = s.env) ∧
    (∃ n, t.env = { s.env with draws := n }) ∧
    ((∀ tag, i ≠ .trap tag) → t.tc = s.tc)

/-! ### The trap context -/

/-- A tag other than the interrupt's is taken at any boundary unless the block is halted, whatever `TC` held
(60_exceptions.md R217, R229, R235). That a presentation to a halted block answers the same state is the model's
choice (log entry 9). -/
def Obligations.PresentedTrapIsTaken : Prop :=
  ∀ s (tag : Tag) syn far, tag ≠ 13 →
    (s.halted = false → takeEvent (.trap tag syn far) s =
      .next { s with tc := some { tag := tag, syn := syn, far := far, step := .t0, t := 0 } }) ∧
    (s.halted = true → takeEvent (.trap tag syn far) s = .next s)

/-- Acceptance: all four conditions, and `ARMED` is not one of them (60_exceptions.md R224). That a turn at which the
core may not accept answers the same state is the model's choice (log entry 9). That a presented trap with the
interrupt's tag is this acceptance, with zeros for what it carries and under the same four conditions, is the model's
reading of R217 and R224 (log entry 16). -/
def Obligations.InterruptAcceptance : Prop :=
  ∀ s,
    ((s.pending ≠ 0 ∧ s.gie = true ∧ s.tc = none ∧ s.halted = false) →
      takeEvent .acceptIrq s =
        .next { s with tc := some { tag := 13, syn := 0, far := 0, step := .t0, t := 0 } }) ∧
    (¬ (s.pending ≠ 0 ∧ s.gie = true ∧ s.tc = none ∧ s.halted = false) → takeEvent .acceptIrq s = .next s) ∧
    (∀ syn far,
      ((s.pending ≠ 0 ∧ s.gie = true ∧ s.tc = none ∧ s.halted = false) →
        takeEvent (.trap 13 syn far) s =
          .next { s with tc := some { tag := 13, syn := 0, far := 0, step := .t0, t := 0 } }) ∧
      (¬ (s.pending ≠ 0 ∧ s.gie = true ∧ s.tc = none ∧ s.halted = false) →
        takeEvent (.trap 13 syn far) s = .next s))

/-- A trap before `VEC.INIT` halts the block without a record, and the trap context's next turn is the fault
(41_vector_dispatch.md R164). That the fault comes at that turn is the model's reading (log entry 7). -/
def Obligations.UnarmedTrapHaltsSilently : Prop :=
  ∀ s r, s.tc = some r → r.step = .t0 → s.halted = false → s.armed = false →
    trapTurn s = .next { s with halted := true, err := 3 } ∧
    trapTurn { s with halted := true, err := 3 } = .fault .vecNotArmed

/-- The terminal entry of the fifteen tags: one record, latched, and the halt (41_vector_dispatch.md R165;
10_state.md R44). -/
def Obligations.TerminalEntryReportsAndHalts : Prop :=
  ∀ s r, s.tc = some r → r.step = .t0 → s.halted = false → s.armed = true → r.tag ≠ 13 →
    trapTurn s = .next { s with
      halted := true
      diag := s.diag ++ [{ kind := 1, tag := r.tag, v0 := r.syn, v1 := r.far }]
      rptInfo := BitVec.ofNat 32 (16 + r.tag.toNat)
      rptVal0 := r.syn
      rptVal1 := r.far
      rptCount := s.rptCount + 1 }

/-- The IRQ entry, the route match by equality of the whole word, the report of an unrecognized word, the return
(41_vector_dispatch.md R166, R167, R168, R169). -/
def Obligations.InterruptDispatchSteps : Prop :=
  ∀ s r, s.tc = some r → s.halted = false →
    (r.step = .t0 → s.armed = true → r.tag = 13 →
      trapTurn s = .next { s with inIrq := true, tc := some { r with step := .t1 } }) ∧
    (r.step = .t1 → trapTurn s = .next { s with
      tc := some { r with
        t := s.pending
        step := if s.pending = 1#32 <<< s.par.timerLine.toNat then .f1 else .t2 } }) ∧
    (r.step = .t2 → trapTurn s = .next { s with
      diag := s.diag ++ [{ kind := 2, tag := 13, v0 := r.t, v1 := 0 }]
      rptInfo := 0x2D#32
      rptVal0 := r.t
      rptVal1 := 0
      rptCount := s.rptCount + 1
      tc := some { r with step := .t3 } }) ∧
    (r.step = .t3 → trapTurn s = .next { s with inIrq := false, tc := none })

/-- `TMR.FIRE`: advance, reprogram, acknowledge, in this order (43_timer.md R199). -/
def Obligations.FireReprogramsThenAcknowledges : Prop :=
  ∀ s r, s.tc = some r → s.halted = false →
    (r.step = .f1 → trapTurn s = .next { s with
      nextDeadline := s.nextDeadline + s.par.interval, tc := some { r with step := .f2 } }) ∧
    (r.step = .f2 → trapTurn s = .next { s with
      compare := s.nextDeadline, tmrArmed := true, tc := some { r with step := .f3 } }) ∧
    (r.step = .f3 → trapTurn s = .next { s with matchFlag := false, tc := some { r with step := .t3 } })

/-- The interrupt service from `T0` to the return, where no agent steps in between: the timer's word runs the fire
exactly once and reports nothing; any other word is reported, and nothing is acknowledged
(41_vector_dispatch.md R163, R167, R168). -/
def Obligations.InterruptServiceRunsHandlerOnce : Prop :=
  ∀ s r, s.tc = some r → r.step = .t0 → r.tag = 13 → s.armed = true → s.halted = false →
    (s.pending = 1#32 <<< s.par.timerLine.toNat →
      trapSteps 6 s = .next { s with
        nextDeadline := s.nextDeadline + s.par.interval
        compare := s.nextDeadline + s.par.interval
        tmrArmed := true
        matchFlag := false
        inIrq := false
        tc := none }) ∧
    (s.pending ≠ 1#32 <<< s.par.timerLine.toNat →
      trapSteps 4 s = .next { s with
        diag := s.diag ++ [{ kind := 2, tag := 13, v0 := s.pending, v1 := 0 }]
        rptInfo := 0x2D#32
        rptVal0 := s.pending
        rptVal1 := 0
        rptCount := s.rptCount + 1
        inIrq := false
        tc := none })

/-- The trap context's frame: it writes none of the foreground's registers (`ERR` only on the unarmed halt), no line
enable, no FIFO, no counter (41_vector_dispatch.md R169; 60_exceptions.md R230, R231). That its turn in a block it
cannot step in answers the same state is the model's choice (log entry 9). -/
def Obligations.TrapContextFrame : Prop :=
  ∀ s t, trapTurn s = .next t →
    t.fg = s.fg ∧ t.arg0 = s.arg0 ∧ t.arg1 = s.arg1 ∧ t.result = s.result ∧ t.lastCmd = s.lastCmd ∧
    t.armed = s.armed ∧ t.gie = s.gie ∧ t.enable = s.enable ∧ t.ext = s.ext ∧ t.out = s.out ∧ t.inb = s.inb ∧
    t.counter = s.counter ∧ t.par = s.par ∧ t.env = s.env ∧
    (s.armed = true → t.err = s.err) ∧
    (s.halted = true → t = s) ∧
    (∀ r, s.tc = some r →
      (r.step ≠ .f1 → t.nextDeadline = s.nextDeadline) ∧
      (r.step ≠ .f2 → t.compare = s.compare ∧ t.tmrArmed = s.tmrArmed) ∧
      (r.step ≠ .f3 → t.matchFlag = s.matchFlag) ∧
      (r.step ≠ .t0 → t.halted = s.halted) ∧
      (r.step ≠ .t0 → r.step ≠ .t3 → t.inIrq = s.inIrq) ∧
      (r.step ≠ .t0 → r.step ≠ .t2 → t.diag = s.diag ∧ t.rptInfo = s.rptInfo ∧ t.rptVal0 = s.rptVal0 ∧
        t.rptVal1 = s.rptVal1 ∧ t.rptCount = s.rptCount))

/-- An interrupt between two micro-steps of a mailbox operation cannot change its outcome: the trap context leaves
the mailbox part as it is, and the mailbox operations' effect on that part depends on nothing else
(70_reset_and_hazards.md R270). The count of drawn free words in that part is the model's (log entry 5). -/
def Obligations.MailboxIsIndependentOfInterrupts : Prop :=
  (∀ s t, trapTurn s = .next t → s.armed = true → t.mailboxPart = s.mailboxPart) ∧
  (∀ i s u s' u', (∃ ch, i = .mbxSend ch ∨ i = .mbxRecv ch) →
    s.fgMayStep = true → u.fgMayStep = true → s.fg ≠ .idle → s.mailboxPart = u.mailboxPart →
    exec i s = .next s' → exec i u = .next u' → s'.mailboxPart = u'.mailboxPart)

/-- In every fair run a trap context that is active ends its work, for it returns or the block halts
(41_vector_dispatch.md R163), and an operation in flight takes its next micro-step however often the interrupt is
accepted again, unless the block halts or is reset (70_reset_and_hazards.md R273). The hypothesis is the fairness of
60_exceptions.md R225 and R241 as the model reads it (log entry 19). -/
def Obligations.FairTrapContextEnds : Prop :=
  ∀ ε ρ, FairRun ε ρ → ∀ k,
    (∃ m, k ≤ m ∧ ((ρ m).tc = none ∨ (ρ m).halted = true)) ∧
    ((ρ k).fg ≠ .idle → ∃ m, k ≤ m ∧
      ((ε m = .foreground ∧ (ρ m).fgCanStep = true) ∨ (ρ m).halted = true ∨ ε m = .reset))

/-! ### Timer -/

/-- The tick step: a match is an equality at a tick, it leaves a flag already set set, and it raises the timer's line
in the same instant (43_timer.md R204). -/
def Obligations.TickMatchesOnEquality : Prop :=
  ∀ s,
    ((s.tmrArmed = true ∧ s.counter + 1 = s.compare) → takeEvent .tick s =
      .next { s with counter := s.counter + 1, matchFlag := true, tmrArmed := false }) ∧
    (¬ (s.tmrArmed = true ∧ s.counter + 1 = s.compare) → takeEvent .tick s =
      .next { s with counter := s.counter + 1 }) ∧
    ∀ t, takeEvent .tick s = .next t →
      (s.matchFlag = true → t.matchFlag = true) ∧
      (t.matchFlag = true → t.raw.getLsbD s.par.timerLine.toNat = true) ∧
      (t.matchFlag = true → t.pending.getLsbD s.par.timerLine.toNat = s.enable.getLsbD s.par.timerLine.toNat)

/-- When an armed compare matches, counted in ticks alone: at the first tick that makes the counter equal to it, a
whole counter period away where the two are equal now (43_timer.md R204, 20_memory.md R83; the distance is derived
from them in 43_timer.md R205). -/
def Obligations.MatchAtDistance : Prop :=
  ∀ (s : State) (d : Nat), s.tmrArmed = true →
    d = (if s.counter = s.compare then 2 ^ 32 else (s.compare - s.counter).toNat) →
    (∀ k, k < d → ticks k s = { s with counter := s.counter + BitVec.ofNat 32 k }) ∧
    ticks d s = { s with counter := s.compare, matchFlag := true, tmrArmed := false }

/-- Free-running: no operation and no register write stops, loads or clears the counter; it advances by the tick
alone (10_state.md R35; 43_timer.md R203). -/
def Obligations.CounterIsFreeRunning : Prop :=
  ∀ s t, step s = .next t → nextEvent s ≠ .reset →
    t.counter = if nextEvent s = .tick then s.counter + 1 else s.counter

/-- No drift: along any run in which the deadline gets no new base, it moves by exactly one interval per fire
(43_timer.md R200), as words, and as natural numbers while the sum stays below 2^32. -/
def Obligations.DeadlineNeverDrifts : Prop :=
  ∀ k s t, runSteps k s = .next t → rebased k s = false →
    t.nextDeadline = s.nextDeadline + BitVec.ofNat 32 (fireCount k s) * s.par.interval ∧
    (s.nextDeadline.toNat + fireCount k s * s.par.interval.toNat < 2 ^ 32 →
      t.nextDeadline.toNat = s.nextDeadline.toNat + fireCount k s * s.par.interval.toNat)

/-- The lost match: a match that falls between `F2` and `F3` is wiped by the acknowledge and leaves the compare
disarmed with no flag (43_timer.md R199 corner a; 70_reset_and_hazards.md R276). -/
def Obligations.LateMatchIsWiped : Prop :=
  ∀ s r, s.tc = some r → r.step = .f3 → s.halted = false → s.tmrArmed = true → s.counter + 1 = s.compare →
    ∃ t u, takeEvent .tick s = .next t ∧ trapTurn t = .next u ∧
      t.matchFlag = true ∧ u.matchFlag = false ∧ u.tmrArmed = false ∧ u.compare = s.compare

/-! ### Derived words -/

/-- `STATUS`, bit by bit (10_state.md R27). -/
def Obligations.MailboxStatusBits : Prop :=
  ∀ s : State,
    (∀ k < 32, s.mbxStatus.getLsbD k =
      if k = 31 then decide (s.out.length = s.par.mbxDepth)
      else if k = 0 then decide (0 < s.inb.length) else false) ∧
    (s.mbxStatus = 0 ↔ s.inb = [] ∧ s.out.length ≠ s.par.mbxDepth)

/-- `RAW`, `PENDING` and the request line, bit by bit (10_state.md R30, R31, R32). -/
def Obligations.PendingBits : Prop :=
  ∀ s : State,
    (∀ k < 32, s.raw.getLsbD k = if k = s.par.timerLine.toNat then s.matchFlag else s.ext.getLsbD k) ∧
    (∀ k < 32, s.pending.getLsbD k = (s.raw.getLsbD k && s.enable.getLsbD k)) ∧
    (s.irqOut = true ↔ s.pending ≠ 0)

/-- A read of `OP_STATUS`, bit by bit, without a side effect; through the port, which answers a free block only,
`IN_IRQ` and `HALTED` can only read 0; and a read of `EVD_ROUTE`, whose bit `t` is the route of tag `t`
(20_memory.md R89, R90). -/
def Obligations.StatusWordBits : Prop :=
  (∀ s : State, ∃ w, regRead .opStatus s = (w, s) ∧
    (∀ k < 32, w.getLsbD k =
      match k with
      | 0 => s.armed
      | 1 => s.gie
      | 2 => s.inIrq
      | 3 => s.halted
      | 4 => s.tmrArmed
      | 5 => s.matchFlag
      | 8 => s.err.getLsbD 0
      | 9 => s.err.getLsbD 1
      | 10 => s.err.getLsbD 2
      | 11 => s.err.getLsbD 3
      | _ => false) ∧
    (StateInv s → s.portFree = true → w.getLsbD 2 = false ∧ w.getLsbD 3 = false)) ∧
  (∀ s : State, regRead .evdRoute s = (0x00002000#32, s)) ∧
  (∀ k < 32, (0x00002000#32).getLsbD k =
    decide (k < 16 ∧ vectorRoute (BitVec.ofNat 4 k) = .irqDispatch))

/-! ### Register port -/

/-- The map of 20_memory.md R70: the register at each word slot of the window; only aligned words of the window are
admitted (R71). -/
def Obligations.WindowMap : Prop :=
  ∀ (p : Params) (addr : Nat) (size : AccessSize),
    (∀ k < 32, addr = p.blockBase + 4 * k → p.blockBase % 0x80 = 0 → size = .word →
      admission p addr size = .admitted
        ([Reg.mbxData, .mbxStatus, .icgEnable, .icgPending, .tmrCounter, .tmrCompare, .tmrMatch, .tmrDeadline,
          .tmrInterval, .opArg0, .opArg1, .opCmd, .opResult, .opStatus, .evdRoute, .rptInfo, .rptVal0,
          .rptVal1, .rptCount, .icgRoute0].getD k .reserved)) ∧
    (p.blockBase ≤ addr → addr < p.blockBase + 0x80 → (size ≠ .word ∨ addr % 4 ≠ 0) →
      admission p addr size = .notAdmitted) ∧
    (addr < p.blockBase ∨ p.blockBase + 0x80 ≤ addr → admission p addr size = .outside)

/-- What each register without a side effect reads (20_memory.md R76, R77, R79 to R82, R84, R85, R87, R88, R91, R92;
R73 for a reserved slot); the state stays as it is. -/
def Obligations.RegisterReads : Prop :=
  ∀ s,
    regRead .mbxStatus s = (s.mbxStatus, s) ∧ regRead .icgEnable s = (s.enable, s) ∧
    regRead .icgPending s = (s.pending, s) ∧ regRead .tmrCounter s = (s.counter, s) ∧
    regRead .tmrCompare s = (s.compare, s) ∧ regRead .tmrMatch s = ((BitVec.ofBool s.matchFlag).setWidth 32, s) ∧
    regRead .tmrDeadline s = (s.nextDeadline, s) ∧ regRead .tmrInterval s = (s.par.interval, s) ∧
    regRead .opArg0 s = (s.arg0, s) ∧ regRead .opArg1 s = (s.arg1, s) ∧ regRead .opCmd s = (s.lastCmd, s) ∧
    regRead .opResult s = (s.result, s) ∧ regRead .opStatus s = (s.opStatus, s) ∧
    regRead .evdRoute s = (0x00002000#32, s) ∧ regRead .rptInfo s = (s.rptInfo, s) ∧
    regRead .rptVal0 s = (s.rptVal0, s) ∧ regRead .rptVal1 s = (s.rptVal1, s) ∧
    regRead .rptCount s = (s.rptCount, s) ∧ regRead .icgRoute0 s = (1#32 <<< s.par.timerLine.toNat, s) ∧
    regRead .reserved s = (0, s)

/-- `MBX_DATA`: a read pops `IN`, and of an empty one returns any word; a write pushes `OUT`, or is dropped
(20_memory.md R74, R75). That the word of an empty read is `Config.freeWord` of the count of draws (log entry 4), and
that the draw advances the count (log entry 5), is the model's. -/
def Obligations.MailboxDataPort : Prop :=
  ∀ s w,
    (∀ v rest, s.inb = v :: rest → regRead .mbxData s = (v, { s with inb := rest })) ∧
    (s.inb = [] → regRead .mbxData s =
      (Config.freeWord s.env.draws, { s with env := { s.env with draws := s.env.draws + 1 } })) ∧
    (s.out.length < s.par.mbxDepth → regWrite .mbxData w s = { s with out := s.out ++ [w] }) ∧
    (s.par.mbxDepth ≤ s.out.length → regWrite .mbxData w s = s)

/-- Writes of the plain registers, of the compare and of the match-clear register; writes of the read-only registers
and of the reserved slots are ignored (20_memory.md R73, R78, R83, R84, R85). -/
def Obligations.RegisterWrites : Prop :=
  ∀ s w,
    regWrite .icgEnable w s = { s with enable := w } ∧
    regWrite .tmrCompare w s = { s with compare := w, tmrArmed := true } ∧
    regWrite .opArg0 w s = { s with arg0 := w } ∧ regWrite .opArg1 w s = { s with arg1 := w } ∧
    (w.getLsbD 0 = true → regWrite .tmrMatch w s = { s with matchFlag := false }) ∧
    (w.getLsbD 0 = false → regWrite .tmrMatch w s = s) ∧
    (∀ r ∈ [Reg.mbxStatus, .icgPending, .tmrCounter, .tmrDeadline, .tmrInterval, .opResult, .opStatus, .evdRoute,
      .rptInfo, .rptVal0, .rptVal1, .rptCount, .icgRoute0, .reserved], regWrite r w s = s)

/-- The port holds an access while the block is busy and serves it when it is free; a non-admitted access is refused
(20_memory.md R71, R98). Accesses take effect in the order the master issues them (R93): an issue puts its access
behind all that are held, and the only other change of the held accesses, in any step, is that the port takes the
oldest. The queue of held accesses and the reply field are the model's (log entry 10), and so are the turn of a busy
port that answers the same state (log entry 9) and the refusals' turn and names (log entry 8). That a reset, which is
one of the steps of the last clause, leaves the held accesses held is the model's too (log entry 17). -/
def Obligations.PortHoldsThenServes : Prop :=
  (∀ s, (s.fg ≠ .idle ∨ s.tc ≠ none ∨ s.halted = true) → hostTurn s = .next s) ∧
  (∀ s addr rest r, s.fg = .idle → s.tc = none → s.halted = false →
    s.env.hostQueue = .read addr .word :: rest → admission s.par addr .word = .admitted r →
    hostTurn s = .next
      ((regRead r { s with env := { s.env with hostQueue := rest } }).2.answer
        (.value (regRead r { s with env := { s.env with hostQueue := rest } }).1))) ∧
  (∀ s addr w rest r, s.fg = .idle → s.tc = none → s.halted = false →
    s.env.hostQueue = .write addr .word w :: rest → admission s.par addr .word = .admitted r →
    hostTurn s = .next
      ((regWrite r w { s with env := { s.env with hostQueue := rest } }).answer .written)) ∧
  (∀ s addr size w rest, s.fg = .idle → s.tc = none → s.halted = false →
    (s.env.hostQueue = .read addr size :: rest ∨ s.env.hostQueue = .write addr size w :: rest) →
    (admission s.par addr size = .notAdmitted → hostTurn s = .refused .accessNotAdmitted) ∧
    (admission s.par addr size = .outside → hostTurn s = .refused .outsideWindow)) ∧
  (∀ s a, takeEvent (.issue a) s =
    .next { s with env := { s.env with hostQueue := s.env.hostQueue ++ [a] } }) ∧
  (∀ s t, step s = .next t →
    (∀ a, nextEvent s = .issue a → t.env.hostQueue = s.env.hostQueue ++ [a]) ∧
    ((∀ a, nextEvent s ≠ .issue a) → t.env.hostQueue ≠ s.env.hostQueue →
      nextEvent s = .host ∧ s.portFree = true ∧ ∃ a, s.env.hostQueue = a :: t.env.hostQueue))

/-! ### Environment -/

/-- The co-processor's pop and push (60_exceptions.md R240). That a pop of an empty `OUT` and a push into a full `IN`
answer the same state is the model's choice (log entry 9), and so is the field that shows the word last taken (log
entry 10). -/
def Obligations.CoprocessorPort : Prop :=
  ∀ s,
    (∀ w rest, s.out = w :: rest → takeEvent .cpPop s =
      .next { s with out := rest, env := { s.env with cpTaken := some w } }) ∧
    (s.out = [] → takeEvent .cpPop s = .next s) ∧
    (∀ w, s.inb.length < s.par.mbxDepth → takeEvent (.cpPush w) s = .next { s with inb := s.inb ++ [w] }) ∧
    (∀ w, s.par.mbxDepth ≤ s.inb.length → takeEvent (.cpPush w) s = .next s)

/-- The external lines are followed as they are: a change replaces `EXT`, and a line other than the timer's shows in
`PENDING` exactly while it is high and enabled (60_exceptions.md R221; 42_irq_gate.md R185). -/
def Obligations.ExternalLinesAreFollowed : Prop :=
  ∀ s w, ∃ t, takeEvent (.setExt w) s = .next t ∧ t = { s with ext := w } ∧
    ∀ k < 32, k ≠ s.par.timerLine.toNat → t.pending.getLsbD k = (w.getLsbD k && s.enable.getLsbD k)

/-- Reset puts every piece of the block's state at the value of 10_state.md R47, from any state, halted or not; `EXT`
keeps its levels (70_reset_and_hazards.md R260, R261). -/
def Obligations.ResetFromAnyState : Prop :=
  ∀ s, ∃ t, takeEvent .reset s = .next t ∧
    t.arg0 = 0 ∧ t.arg1 = 0 ∧ t.result = 0 ∧ t.lastCmd = 0 ∧ t.err = 0 ∧ t.fg = .idle ∧ t.tc = none ∧
    t.out = [] ∧ t.inb = [] ∧ t.enable = 0 ∧ t.rptInfo = 0 ∧ t.rptVal0 = 0 ∧ t.rptVal1 = 0 ∧ t.rptCount = 0 ∧
    t.counter = 0 ∧ t.compare = 0 ∧ t.tmrArmed = false ∧ t.matchFlag = false ∧ t.nextDeadline = 0 ∧
    t.armed = false ∧ t.inIrq = false ∧ t.halted = false ∧ t.gie = false ∧ t.diag = [] ∧
    t.ext = s.ext ∧ t.par = s.par ∧
    (1 ≤ s.par.mbxDepth → t.mbxStatus = 0) ∧ t.pending = 0 ∧ t.irqOut = false ∧ t.opStatus = 0

/-! ### The whole machine -/

/-- The invariant holds of the state after reset (10_state.md R46, R47). -/
def Obligations.ResetMeetsInvariant : Prop := StateInv State.reset

/-- Every step of every agent keeps the invariant (10_state.md R46). -/
def Obligations.StepKeepsInvariant : Prop :=
  ∀ s t, StateInv s → step s = .next t → StateInv t

/-- From a state of the invariant the machine stops for the reasons the spec names and for no other: the trap
context's turn after an unarmed trap, a non-admitted bus access (41_vector_dispatch.md R164; 20_memory.md R71). The
turn at which the fault comes is the model's (log entry 7), as are the names of the two refusals (log entry 8) and the
queue whose oldest access is refused (log entry 10). -/
def Obligations.StopsOnlyAsRuled : Prop :=
  ∀ s, StateInv s →
    (∀ f, step s = .fault f →
      f = .vecNotArmed ∧ nextEvent s = .trapContext ∧ s.halted = true ∧ s.armed = false) ∧
    (∀ x, step s = .refused x →
      nextEvent s = .host ∧ s.portFree = true ∧ ∃ a rest, s.env.hostQueue = a :: rest ∧
        ((x = .accessNotAdmitted ∧ admission s.par a.addr a.size = .notAdmitted) ∨
          (x = .outsideWindow ∧ admission s.par a.addr a.size = .outside)))

/-- Each FIFO keeps its order, whatever agent steps: `OUT` gains a word at its tail from the foreground or the port and
loses its head to the co-processor, which takes that word; `IN` gains a word at its tail from the co-processor and loses
its head to the foreground or the port; a reset empties both (10_state.md R25, R26; 20_memory.md R95). The field that
shows the word the co-processor took is the model's (log entry 10). -/
def Obligations.FifosKeepOrder : Prop :=
  ∀ s t, step s = .next t →
    (t.out = s.out ∨
      (∃ w, t.out = s.out ++ [w] ∧ s.out.length < s.par.mbxDepth ∧
        (nextEvent s = .foreground ∨ nextEvent s = .host)) ∨
      (∃ w, s.out = w :: t.out ∧ nextEvent s = .cpPop ∧ t.env.cpTaken = some w) ∨
      (nextEvent s = .reset ∧ t.out = [])) ∧
    (t.inb = s.inb ∨
      (∃ w, t.inb = s.inb ++ [w] ∧ s.inb.length < s.par.mbxDepth ∧ nextEvent s = .cpPush w) ∨
      (∃ w, s.inb = w :: t.inb ∧ (nextEvent s = .foreground ∨ nextEvent s = .host)) ∨
      (nextEvent s = .reset ∧ t.inb = []))

/-- `HALTED` is left by reset alone; a halted block keeps both contexts and every register but those the environment
agents move (41_vector_dispatch.md R165; 60_exceptions.md R235). The reply field that then stays as it is is the
model's (log entry 10). -/
def Obligations.HaltIsForGood : Prop :=
  ∀ s t, s.halted = true → step s = .next t → nextEvent s ≠ .reset →
    t.halted = true ∧ t.fg = s.fg ∧ t.tc = s.tc ∧ t.diag = s.diag ∧ t.rptCount = s.rptCount ∧
    t.rptInfo = s.rptInfo ∧ t.rptVal0 = s.rptVal0 ∧ t.rptVal1 = s.rptVal1 ∧
    t.arg0 = s.arg0 ∧ t.arg1 = s.arg1 ∧ t.result = s.result ∧ t.lastCmd = s.lastCmd ∧ t.err = s.err ∧
    t.armed = s.armed ∧ t.gie = s.gie ∧ t.inIrq = s.inIrq ∧ t.enable = s.enable ∧
    t.compare = s.compare ∧ t.nextDeadline = s.nextDeadline ∧ t.env.hostReply = s.env.hostReply

/-- `ARMED` and `GIE` are never cleared but by reset, and each is set by its operation alone (10_state.md R24). -/
def Obligations.ModeBitsAreSticky : Prop :=
  ∀ s t, step s = .next t → nextEvent s ≠ .reset →
    (s.armed = true → t.armed = true) ∧ (s.gie = true → t.gie = true) ∧
    (s.armed = false → t.armed = true → ∃ r, s.fg = .busy r ∧ r.instr = .vecInit ∧ nextEvent s = .foreground) ∧
    (s.gie = false → t.gie = true → ∃ r, s.fg = .busy r ∧ r.instr = .irqUnmask ∧ nextEvent s = .foreground)

/-- `DIAG` is append-only, one record at a time, and only the trap context emits (10_state.md R43; 60_exceptions.md
R216, R218). -/
def Obligations.DiagIsAppendOnly : Prop :=
  ∀ s t, step s = .next t → nextEvent s ≠ .reset →
    t.diag = s.diag ∨ ∃ rec, t.diag = s.diag ++ [rec] ∧ nextEvent s = .trapContext ∧ emittable rec

/-- `NEXT_DEADLINE` is "mutated only by the Timer Subsystem": `S3` of `TMR.INIT` stores its temporary, `F1` of
`TMR.FIRE` adds the interval, reset clears it, and nothing else writes it (10_state.md R39; 43_timer.md R206). -/
def Obligations.DeadlineBelongsToTimer : Prop :=
  ∀ s t, step s = .next t →
    (nextEvent s = .reset → t.nextDeadline = 0) ∧
    (∀ r, nextEvent s = .foreground → s.fgMayStep = true → s.fg = .busy r → r.instr = .tmrInit → r.step = .s3 →
      t.nextDeadline = r.t) ∧
    (isFire s = true → t.nextDeadline = s.nextDeadline + s.par.interval) ∧
    (isRebase s = false → isFire s = false → t.nextDeadline = s.nextDeadline)

/-- The parameters of the instance are never changed (00_scope.md R5, R9; 10_state.md R40). -/
def Obligations.ParametersAreConstant : Prop :=
  ∀ s t, step s = .next t → t.par = s.par
end

