-- ==== Sys2Proof/Laws/Decode.lean ====
section
/-!
SUPPORT. The command word in numbers: its three fields, and the word put together from an opcode and a selector.
-/

namespace Sys2Proof

/-- The three fields of a word as numbers (30_encoding.md R102). -/
theorem fields_toNat (w : Word) :
    (opField w).toNat = w.toNat / 2 ^ 28 ∧ (selField w).toNat = w.toNat / 2 ^ 23 % 2 ^ 5 ∧
      (zeroField w).toNat = w.toNat % 2 ^ 23 := by
  have hw := w.isLt
  simp only [opField, selField, zeroField, BitVec.extractLsb'_toNat, Nat.shiftRight_eq_div_pow]
  refine ⟨by omega, trivial, by omega⟩

/-- A command word as a number. -/
theorem commandWord_toNat (op : BitVec 4) (sel : BitVec 5) :
    (commandWord op sel).toNat = op.toNat * 2 ^ 28 + sel.toNat * 2 ^ 23 := by
  have hs := sel.isLt
  simp only [commandWord, BitVec.toNat_append]
  rw [← Nat.shiftLeft_add_eq_or_of_lt (by simp), ← Nat.shiftLeft_add_eq_or_of_lt (by exact hs)]
  simp [Nat.shiftLeft_eq]
  omega

/-- A word is the command word of its fields and of no others. -/
theorem eq_commandWord_iff (w : Word) (op : BitVec 4) (sel : BitVec 5) :
    w = commandWord op sel ↔ opField w = op ∧ selField w = sel ∧ zeroField w = 0#23 := by
  have hw := w.isLt
  have ho := op.isLt
  have hs := sel.isLt
  obtain ⟨h1, h2, h3⟩ := fields_toNat w
  rw [← BitVec.toNat_inj, ← BitVec.toNat_inj, ← BitVec.toNat_inj, ← BitVec.toNat_inj, commandWord_toNat, h1, h2, h3]
  change _ ↔ _ ∧ _ ∧ _ = 0
  omega

end Sys2Proof
end

