-- ==== Sys2Proof/Laws/State.lean ====
section
/-!
SUPPORT. One lemma per field per update of the state, each true by `rfl`, so that no later proof unfolds an update.
-/

namespace Sys2Proof.Machine

/-! ### `goto` -/

@[simp] theorem goto_par (s : State) (r : FgRecord) (l : FgLabel) : (s.goto r l).par = s.par := rfl
@[simp] theorem goto_arg0 (s : State) (r : FgRecord) (l : FgLabel) : (s.goto r l).arg0 = s.arg0 := rfl
@[simp] theorem goto_arg1 (s : State) (r : FgRecord) (l : FgLabel) : (s.goto r l).arg1 = s.arg1 := rfl
@[simp] theorem goto_result (s : State) (r : FgRecord) (l : FgLabel) : (s.goto r l).result = s.result := rfl
@[simp] theorem goto_lastCmd (s : State) (r : FgRecord) (l : FgLabel) : (s.goto r l).lastCmd = s.lastCmd := rfl
@[simp] theorem goto_err (s : State) (r : FgRecord) (l : FgLabel) : (s.goto r l).err = s.err := rfl
@[simp] theorem goto_fg (s : State) (r : FgRecord) (l : FgLabel) : (s.goto r l).fg = .busy { r with step := l } := rfl
@[simp] theorem goto_tc (s : State) (r : FgRecord) (l : FgLabel) : (s.goto r l).tc = s.tc := rfl
@[simp] theorem goto_armed (s : State) (r : FgRecord) (l : FgLabel) : (s.goto r l).armed = s.armed := rfl
@[simp] theorem goto_gie (s : State) (r : FgRecord) (l : FgLabel) : (s.goto r l).gie = s.gie := rfl
@[simp] theorem goto_inIrq (s : State) (r : FgRecord) (l : FgLabel) : (s.goto r l).inIrq = s.inIrq := rfl
@[simp] theorem goto_halted (s : State) (r : FgRecord) (l : FgLabel) : (s.goto r l).halted = s.halted := rfl
@[simp] theorem goto_tmrArmed (s : State) (r : FgRecord) (l : FgLabel) : (s.goto r l).tmrArmed = s.tmrArmed := rfl
@[simp] theorem goto_matchFlag (s : State) (r : FgRecord) (l : FgLabel) : (s.goto r l).matchFlag = s.matchFlag := rfl
@[simp] theorem goto_out (s : State) (r : FgRecord) (l : FgLabel) : (s.goto r l).out = s.out := rfl
@[simp] theorem goto_inb (s : State) (r : FgRecord) (l : FgLabel) : (s.goto r l).inb = s.inb := rfl
@[simp] theorem goto_enable (s : State) (r : FgRecord) (l : FgLabel) : (s.goto r l).enable = s.enable := rfl
@[simp] theorem goto_ext (s : State) (r : FgRecord) (l : FgLabel) : (s.goto r l).ext = s.ext := rfl
@[simp] theorem goto_counter (s : State) (r : FgRecord) (l : FgLabel) : (s.goto r l).counter = s.counter := rfl
@[simp] theorem goto_compare (s : State) (r : FgRecord) (l : FgLabel) : (s.goto r l).compare = s.compare := rfl
@[simp] theorem goto_nextDeadline (s : State) (r : FgRecord) (l : FgLabel) : (s.goto r l).nextDeadline = s.nextDeadline := rfl
@[simp] theorem goto_diag (s : State) (r : FgRecord) (l : FgLabel) : (s.goto r l).diag = s.diag := rfl
@[simp] theorem goto_rptInfo (s : State) (r : FgRecord) (l : FgLabel) : (s.goto r l).rptInfo = s.rptInfo := rfl
@[simp] theorem goto_rptVal0 (s : State) (r : FgRecord) (l : FgLabel) : (s.goto r l).rptVal0 = s.rptVal0 := rfl
@[simp] theorem goto_rptVal1 (s : State) (r : FgRecord) (l : FgLabel) : (s.goto r l).rptVal1 = s.rptVal1 := rfl
@[simp] theorem goto_rptCount (s : State) (r : FgRecord) (l : FgLabel) : (s.goto r l).rptCount = s.rptCount := rfl
@[simp] theorem goto_env (s : State) (r : FgRecord) (l : FgLabel) : (s.goto r l).env = s.env := rfl

/-! ### `finish` -/

@[simp] theorem finish_par (s : State) (c : BitVec 4) : (s.finish c).par = s.par := rfl
@[simp] theorem finish_arg0 (s : State) (c : BitVec 4) : (s.finish c).arg0 = s.arg0 := rfl
@[simp] theorem finish_arg1 (s : State) (c : BitVec 4) : (s.finish c).arg1 = s.arg1 := rfl
@[simp] theorem finish_result (s : State) (c : BitVec 4) : (s.finish c).result = s.result := rfl
@[simp] theorem finish_lastCmd (s : State) (c : BitVec 4) : (s.finish c).lastCmd = s.lastCmd := rfl
@[simp] theorem finish_err (s : State) (c : BitVec 4) : (s.finish c).err = c := rfl
@[simp] theorem finish_fg (s : State) (c : BitVec 4) : (s.finish c).fg = .idle := rfl
@[simp] theorem finish_tc (s : State) (c : BitVec 4) : (s.finish c).tc = s.tc := rfl
@[simp] theorem finish_armed (s : State) (c : BitVec 4) : (s.finish c).armed = s.armed := rfl
@[simp] theorem finish_gie (s : State) (c : BitVec 4) : (s.finish c).gie = s.gie := rfl
@[simp] theorem finish_inIrq (s : State) (c : BitVec 4) : (s.finish c).inIrq = s.inIrq := rfl
@[simp] theorem finish_halted (s : State) (c : BitVec 4) : (s.finish c).halted = s.halted := rfl
@[simp] theorem finish_tmrArmed (s : State) (c : BitVec 4) : (s.finish c).tmrArmed = s.tmrArmed := rfl
@[simp] theorem finish_matchFlag (s : State) (c : BitVec 4) : (s.finish c).matchFlag = s.matchFlag := rfl
@[simp] theorem finish_out (s : State) (c : BitVec 4) : (s.finish c).out = s.out := rfl
@[simp] theorem finish_inb (s : State) (c : BitVec 4) : (s.finish c).inb = s.inb := rfl
@[simp] theorem finish_enable (s : State) (c : BitVec 4) : (s.finish c).enable = s.enable := rfl
@[simp] theorem finish_ext (s : State) (c : BitVec 4) : (s.finish c).ext = s.ext := rfl
@[simp] theorem finish_counter (s : State) (c : BitVec 4) : (s.finish c).counter = s.counter := rfl
@[simp] theorem finish_compare (s : State) (c : BitVec 4) : (s.finish c).compare = s.compare := rfl
@[simp] theorem finish_nextDeadline (s : State) (c : BitVec 4) : (s.finish c).nextDeadline = s.nextDeadline := rfl
@[simp] theorem finish_diag (s : State) (c : BitVec 4) : (s.finish c).diag = s.diag := rfl
@[simp] theorem finish_rptInfo (s : State) (c : BitVec 4) : (s.finish c).rptInfo = s.rptInfo := rfl
@[simp] theorem finish_rptVal0 (s : State) (c : BitVec 4) : (s.finish c).rptVal0 = s.rptVal0 := rfl
@[simp] theorem finish_rptVal1 (s : State) (c : BitVec 4) : (s.finish c).rptVal1 = s.rptVal1 := rfl
@[simp] theorem finish_rptCount (s : State) (c : BitVec 4) : (s.finish c).rptCount = s.rptCount := rfl
@[simp] theorem finish_env (s : State) (c : BitVec 4) : (s.finish c).env = s.env := rfl

/-! ### `tcGoto` -/

@[simp] theorem tcGoto_par (s : State) (r : TcRecord) (l : TcLabel) : (s.tcGoto r l).par = s.par := rfl
@[simp] theorem tcGoto_arg0 (s : State) (r : TcRecord) (l : TcLabel) : (s.tcGoto r l).arg0 = s.arg0 := rfl
@[simp] theorem tcGoto_arg1 (s : State) (r : TcRecord) (l : TcLabel) : (s.tcGoto r l).arg1 = s.arg1 := rfl
@[simp] theorem tcGoto_result (s : State) (r : TcRecord) (l : TcLabel) : (s.tcGoto r l).result = s.result := rfl
@[simp] theorem tcGoto_lastCmd (s : State) (r : TcRecord) (l : TcLabel) : (s.tcGoto r l).lastCmd = s.lastCmd := rfl
@[simp] theorem tcGoto_err (s : State) (r : TcRecord) (l : TcLabel) : (s.tcGoto r l).err = s.err := rfl
@[simp] theorem tcGoto_fg (s : State) (r : TcRecord) (l : TcLabel) : (s.tcGoto r l).fg = s.fg := rfl
@[simp] theorem tcGoto_tc (s : State) (r : TcRecord) (l : TcLabel) : (s.tcGoto r l).tc = some { r with step := l } := rfl
@[simp] theorem tcGoto_armed (s : State) (r : TcRecord) (l : TcLabel) : (s.tcGoto r l).armed = s.armed := rfl
@[simp] theorem tcGoto_gie (s : State) (r : TcRecord) (l : TcLabel) : (s.tcGoto r l).gie = s.gie := rfl
@[simp] theorem tcGoto_inIrq (s : State) (r : TcRecord) (l : TcLabel) : (s.tcGoto r l).inIrq = s.inIrq := rfl
@[simp] theorem tcGoto_halted (s : State) (r : TcRecord) (l : TcLabel) : (s.tcGoto r l).halted = s.halted := rfl
@[simp] theorem tcGoto_tmrArmed (s : State) (r : TcRecord) (l : TcLabel) : (s.tcGoto r l).tmrArmed = s.tmrArmed := rfl
@[simp] theorem tcGoto_matchFlag (s : State) (r : TcRecord) (l : TcLabel) : (s.tcGoto r l).matchFlag = s.matchFlag := rfl
@[simp] theorem tcGoto_out (s : State) (r : TcRecord) (l : TcLabel) : (s.tcGoto r l).out = s.out := rfl
@[simp] theorem tcGoto_inb (s : State) (r : TcRecord) (l : TcLabel) : (s.tcGoto r l).inb = s.inb := rfl
@[simp] theorem tcGoto_enable (s : State) (r : TcRecord) (l : TcLabel) : (s.tcGoto r l).enable = s.enable := rfl
@[simp] theorem tcGoto_ext (s : State) (r : TcRecord) (l : TcLabel) : (s.tcGoto r l).ext = s.ext := rfl
@[simp] theorem tcGoto_counter (s : State) (r : TcRecord) (l : TcLabel) : (s.tcGoto r l).counter = s.counter := rfl
@[simp] theorem tcGoto_compare (s : State) (r : TcRecord) (l : TcLabel) : (s.tcGoto r l).compare = s.compare := rfl
@[simp] theorem tcGoto_nextDeadline (s : State) (r : TcRecord) (l : TcLabel) : (s.tcGoto r l).nextDeadline = s.nextDeadline := rfl
@[simp] theorem tcGoto_diag (s : State) (r : TcRecord) (l : TcLabel) : (s.tcGoto r l).diag = s.diag := rfl
@[simp] theorem tcGoto_rptInfo (s : State) (r : TcRecord) (l : TcLabel) : (s.tcGoto r l).rptInfo = s.rptInfo := rfl
@[simp] theorem tcGoto_rptVal0 (s : State) (r : TcRecord) (l : TcLabel) : (s.tcGoto r l).rptVal0 = s.rptVal0 := rfl
@[simp] theorem tcGoto_rptVal1 (s : State) (r : TcRecord) (l : TcLabel) : (s.tcGoto r l).rptVal1 = s.rptVal1 := rfl
@[simp] theorem tcGoto_rptCount (s : State) (r : TcRecord) (l : TcLabel) : (s.tcGoto r l).rptCount = s.rptCount := rfl
@[simp] theorem tcGoto_env (s : State) (r : TcRecord) (l : TcLabel) : (s.tcGoto r l).env = s.env := rfl

/-! ### `emit` -/

@[simp] theorem emit_par (s : State) (rec : Report) : (s.emit rec).par = s.par := rfl
@[simp] theorem emit_arg0 (s : State) (rec : Report) : (s.emit rec).arg0 = s.arg0 := rfl
@[simp] theorem emit_arg1 (s : State) (rec : Report) : (s.emit rec).arg1 = s.arg1 := rfl
@[simp] theorem emit_result (s : State) (rec : Report) : (s.emit rec).result = s.result := rfl
@[simp] theorem emit_lastCmd (s : State) (rec : Report) : (s.emit rec).lastCmd = s.lastCmd := rfl
@[simp] theorem emit_err (s : State) (rec : Report) : (s.emit rec).err = s.err := rfl
@[simp] theorem emit_fg (s : State) (rec : Report) : (s.emit rec).fg = s.fg := rfl
@[simp] theorem emit_tc (s : State) (rec : Report) : (s.emit rec).tc = s.tc := rfl
@[simp] theorem emit_armed (s : State) (rec : Report) : (s.emit rec).armed = s.armed := rfl
@[simp] theorem emit_gie (s : State) (rec : Report) : (s.emit rec).gie = s.gie := rfl
@[simp] theorem emit_inIrq (s : State) (rec : Report) : (s.emit rec).inIrq = s.inIrq := rfl
@[simp] theorem emit_halted (s : State) (rec : Report) : (s.emit rec).halted = s.halted := rfl
@[simp] theorem emit_tmrArmed (s : State) (rec : Report) : (s.emit rec).tmrArmed = s.tmrArmed := rfl
@[simp] theorem emit_matchFlag (s : State) (rec : Report) : (s.emit rec).matchFlag = s.matchFlag := rfl
@[simp] theorem emit_out (s : State) (rec : Report) : (s.emit rec).out = s.out := rfl
@[simp] theorem emit_inb (s : State) (rec : Report) : (s.emit rec).inb = s.inb := rfl
@[simp] theorem emit_enable (s : State) (rec : Report) : (s.emit rec).enable = s.enable := rfl
@[simp] theorem emit_ext (s : State) (rec : Report) : (s.emit rec).ext = s.ext := rfl
@[simp] theorem emit_counter (s : State) (rec : Report) : (s.emit rec).counter = s.counter := rfl
@[simp] theorem emit_compare (s : State) (rec : Report) : (s.emit rec).compare = s.compare := rfl
@[simp] theorem emit_nextDeadline (s : State) (rec : Report) : (s.emit rec).nextDeadline = s.nextDeadline := rfl
@[simp] theorem emit_diag (s : State) (rec : Report) : (s.emit rec).diag = s.diag ++ [rec] := rfl
@[simp] theorem emit_rptInfo (s : State) (rec : Report) : (s.emit rec).rptInfo = Report.info rec := rfl
@[simp] theorem emit_rptVal0 (s : State) (rec : Report) : (s.emit rec).rptVal0 = rec.v0 := rfl
@[simp] theorem emit_rptVal1 (s : State) (rec : Report) : (s.emit rec).rptVal1 = rec.v1 := rfl
@[simp] theorem emit_rptCount (s : State) (rec : Report) : (s.emit rec).rptCount = s.rptCount + 1 := rfl
@[simp] theorem emit_env (s : State) (rec : Report) : (s.emit rec).env = s.env := rfl

/-! ### `answer` -/

@[simp] theorem answer_par (s : State) (r : HostReply) : (s.answer r).par = s.par := rfl
@[simp] theorem answer_arg0 (s : State) (r : HostReply) : (s.answer r).arg0 = s.arg0 := rfl
@[simp] theorem answer_arg1 (s : State) (r : HostReply) : (s.answer r).arg1 = s.arg1 := rfl
@[simp] theorem answer_result (s : State) (r : HostReply) : (s.answer r).result = s.result := rfl
@[simp] theorem answer_lastCmd (s : State) (r : HostReply) : (s.answer r).lastCmd = s.lastCmd := rfl
@[simp] theorem answer_err (s : State) (r : HostReply) : (s.answer r).err = s.err := rfl
@[simp] theorem answer_fg (s : State) (r : HostReply) : (s.answer r).fg = s.fg := rfl
@[simp] theorem answer_tc (s : State) (r : HostReply) : (s.answer r).tc = s.tc := rfl
@[simp] theorem answer_armed (s : State) (r : HostReply) : (s.answer r).armed = s.armed := rfl
@[simp] theorem answer_gie (s : State) (r : HostReply) : (s.answer r).gie = s.gie := rfl
@[simp] theorem answer_inIrq (s : State) (r : HostReply) : (s.answer r).inIrq = s.inIrq := rfl
@[simp] theorem answer_halted (s : State) (r : HostReply) : (s.answer r).halted = s.halted := rfl
@[simp] theorem answer_tmrArmed (s : State) (r : HostReply) : (s.answer r).tmrArmed = s.tmrArmed := rfl
@[simp] theorem answer_matchFlag (s : State) (r : HostReply) : (s.answer r).matchFlag = s.matchFlag := rfl
@[simp] theorem answer_out (s : State) (r : HostReply) : (s.answer r).out = s.out := rfl
@[simp] theorem answer_inb (s : State) (r : HostReply) : (s.answer r).inb = s.inb := rfl
@[simp] theorem answer_enable (s : State) (r : HostReply) : (s.answer r).enable = s.enable := rfl
@[simp] theorem answer_ext (s : State) (r : HostReply) : (s.answer r).ext = s.ext := rfl
@[simp] theorem answer_counter (s : State) (r : HostReply) : (s.answer r).counter = s.counter := rfl
@[simp] theorem answer_compare (s : State) (r : HostReply) : (s.answer r).compare = s.compare := rfl
@[simp] theorem answer_nextDeadline (s : State) (r : HostReply) : (s.answer r).nextDeadline = s.nextDeadline := rfl
@[simp] theorem answer_diag (s : State) (r : HostReply) : (s.answer r).diag = s.diag := rfl
@[simp] theorem answer_rptInfo (s : State) (r : HostReply) : (s.answer r).rptInfo = s.rptInfo := rfl
@[simp] theorem answer_rptVal0 (s : State) (r : HostReply) : (s.answer r).rptVal0 = s.rptVal0 := rfl
@[simp] theorem answer_rptVal1 (s : State) (r : HostReply) : (s.answer r).rptVal1 = s.rptVal1 := rfl
@[simp] theorem answer_rptCount (s : State) (r : HostReply) : (s.answer r).rptCount = s.rptCount := rfl
@[simp] theorem answer_env (s : State) (r : HostReply) : (s.answer r).env = { s.env with hostReply := r } := rfl

/-! ### `takeTrap` -/

@[simp] theorem takeTrap_par (s : State) (tag : Tag) (syn far : Word) : (takeTrap tag syn far s).par = s.par := rfl
@[simp] theorem takeTrap_arg0 (s : State) (tag : Tag) (syn far : Word) : (takeTrap tag syn far s).arg0 = s.arg0 := rfl
@[simp] theorem takeTrap_arg1 (s : State) (tag : Tag) (syn far : Word) : (takeTrap tag syn far s).arg1 = s.arg1 := rfl
@[simp] theorem takeTrap_result (s : State) (tag : Tag) (syn far : Word) : (takeTrap tag syn far s).result = s.result := rfl
@[simp] theorem takeTrap_lastCmd (s : State) (tag : Tag) (syn far : Word) : (takeTrap tag syn far s).lastCmd = s.lastCmd := rfl
@[simp] theorem takeTrap_err (s : State) (tag : Tag) (syn far : Word) : (takeTrap tag syn far s).err = s.err := rfl
@[simp] theorem takeTrap_fg (s : State) (tag : Tag) (syn far : Word) : (takeTrap tag syn far s).fg = s.fg := rfl
@[simp] theorem takeTrap_tc (s : State) (tag : Tag) (syn far : Word) : (takeTrap tag syn far s).tc = some (trapRecord tag syn far) := rfl
@[simp] theorem takeTrap_armed (s : State) (tag : Tag) (syn far : Word) : (takeTrap tag syn far s).armed = s.armed := rfl
@[simp] theorem takeTrap_gie (s : State) (tag : Tag) (syn far : Word) : (takeTrap tag syn far s).gie = s.gie := rfl
@[simp] theorem takeTrap_inIrq (s : State) (tag : Tag) (syn far : Word) : (takeTrap tag syn far s).inIrq = s.inIrq := rfl
@[simp] theorem takeTrap_halted (s : State) (tag : Tag) (syn far : Word) : (takeTrap tag syn far s).halted = s.halted := rfl
@[simp] theorem takeTrap_tmrArmed (s : State) (tag : Tag) (syn far : Word) : (takeTrap tag syn far s).tmrArmed = s.tmrArmed := rfl
@[simp] theorem takeTrap_matchFlag (s : State) (tag : Tag) (syn far : Word) : (takeTrap tag syn far s).matchFlag = s.matchFlag := rfl
@[simp] theorem takeTrap_out (s : State) (tag : Tag) (syn far : Word) : (takeTrap tag syn far s).out = s.out := rfl
@[simp] theorem takeTrap_inb (s : State) (tag : Tag) (syn far : Word) : (takeTrap tag syn far s).inb = s.inb := rfl
@[simp] theorem takeTrap_enable (s : State) (tag : Tag) (syn far : Word) : (takeTrap tag syn far s).enable = s.enable := rfl
@[simp] theorem takeTrap_ext (s : State) (tag : Tag) (syn far : Word) : (takeTrap tag syn far s).ext = s.ext := rfl
@[simp] theorem takeTrap_counter (s : State) (tag : Tag) (syn far : Word) : (takeTrap tag syn far s).counter = s.counter := rfl
@[simp] theorem takeTrap_compare (s : State) (tag : Tag) (syn far : Word) : (takeTrap tag syn far s).compare = s.compare := rfl
@[simp] theorem takeTrap_nextDeadline (s : State) (tag : Tag) (syn far : Word) : (takeTrap tag syn far s).nextDeadline = s.nextDeadline := rfl
@[simp] theorem takeTrap_diag (s : State) (tag : Tag) (syn far : Word) : (takeTrap tag syn far s).diag = s.diag := rfl
@[simp] theorem takeTrap_rptInfo (s : State) (tag : Tag) (syn far : Word) : (takeTrap tag syn far s).rptInfo = s.rptInfo := rfl
@[simp] theorem takeTrap_rptVal0 (s : State) (tag : Tag) (syn far : Word) : (takeTrap tag syn far s).rptVal0 = s.rptVal0 := rfl
@[simp] theorem takeTrap_rptVal1 (s : State) (tag : Tag) (syn far : Word) : (takeTrap tag syn far s).rptVal1 = s.rptVal1 := rfl
@[simp] theorem takeTrap_rptCount (s : State) (tag : Tag) (syn far : Word) : (takeTrap tag syn far s).rptCount = s.rptCount := rfl
@[simp] theorem takeTrap_env (s : State) (tag : Tag) (syn far : Word) : (takeTrap tag syn far s).env = s.env := rfl

/-! ### `trapReturn` -/

@[simp] theorem trapReturn_par (s : State) : (trapReturn s).par = s.par := rfl
@[simp] theorem trapReturn_arg0 (s : State) : (trapReturn s).arg0 = s.arg0 := rfl
@[simp] theorem trapReturn_arg1 (s : State) : (trapReturn s).arg1 = s.arg1 := rfl
@[simp] theorem trapReturn_result (s : State) : (trapReturn s).result = s.result := rfl
@[simp] theorem trapReturn_lastCmd (s : State) : (trapReturn s).lastCmd = s.lastCmd := rfl
@[simp] theorem trapReturn_err (s : State) : (trapReturn s).err = s.err := rfl
@[simp] theorem trapReturn_fg (s : State) : (trapReturn s).fg = s.fg := rfl
@[simp] theorem trapReturn_tc (s : State) : (trapReturn s).tc = none := rfl
@[simp] theorem trapReturn_armed (s : State) : (trapReturn s).armed = s.armed := rfl
@[simp] theorem trapReturn_gie (s : State) : (trapReturn s).gie = s.gie := rfl
@[simp] theorem trapReturn_inIrq (s : State) : (trapReturn s).inIrq = false := rfl
@[simp] theorem trapReturn_halted (s : State) : (trapReturn s).halted = s.halted := rfl
@[simp] theorem trapReturn_tmrArmed (s : State) : (trapReturn s).tmrArmed = s.tmrArmed := rfl
@[simp] theorem trapReturn_matchFlag (s : State) : (trapReturn s).matchFlag = s.matchFlag := rfl
@[simp] theorem trapReturn_out (s : State) : (trapReturn s).out = s.out := rfl
@[simp] theorem trapReturn_inb (s : State) : (trapReturn s).inb = s.inb := rfl
@[simp] theorem trapReturn_enable (s : State) : (trapReturn s).enable = s.enable := rfl
@[simp] theorem trapReturn_ext (s : State) : (trapReturn s).ext = s.ext := rfl
@[simp] theorem trapReturn_counter (s : State) : (trapReturn s).counter = s.counter := rfl
@[simp] theorem trapReturn_compare (s : State) : (trapReturn s).compare = s.compare := rfl
@[simp] theorem trapReturn_nextDeadline (s : State) : (trapReturn s).nextDeadline = s.nextDeadline := rfl
@[simp] theorem trapReturn_diag (s : State) : (trapReturn s).diag = s.diag := rfl
@[simp] theorem trapReturn_rptInfo (s : State) : (trapReturn s).rptInfo = s.rptInfo := rfl
@[simp] theorem trapReturn_rptVal0 (s : State) : (trapReturn s).rptVal0 = s.rptVal0 := rfl
@[simp] theorem trapReturn_rptVal1 (s : State) : (trapReturn s).rptVal1 = s.rptVal1 := rfl
@[simp] theorem trapReturn_rptCount (s : State) : (trapReturn s).rptCount = s.rptCount := rfl
@[simp] theorem trapReturn_env (s : State) : (trapReturn s).env = s.env := rfl

/-! ### `unarmedEntry` -/

@[simp] theorem unarmedEntry_par (s : State) : (unarmedEntry s).par = s.par := rfl
@[simp] theorem unarmedEntry_arg0 (s : State) : (unarmedEntry s).arg0 = s.arg0 := rfl
@[simp] theorem unarmedEntry_arg1 (s : State) : (unarmedEntry s).arg1 = s.arg1 := rfl
@[simp] theorem unarmedEntry_result (s : State) : (unarmedEntry s).result = s.result := rfl
@[simp] theorem unarmedEntry_lastCmd (s : State) : (unarmedEntry s).lastCmd = s.lastCmd := rfl
@[simp] theorem unarmedEntry_err (s : State) : (unarmedEntry s).err = 3 := rfl
@[simp] theorem unarmedEntry_fg (s : State) : (unarmedEntry s).fg = s.fg := rfl
@[simp] theorem unarmedEntry_tc (s : State) : (unarmedEntry s).tc = s.tc := rfl
@[simp] theorem unarmedEntry_armed (s : State) : (unarmedEntry s).armed = s.armed := rfl
@[simp] theorem unarmedEntry_gie (s : State) : (unarmedEntry s).gie = s.gie := rfl
@[simp] theorem unarmedEntry_inIrq (s : State) : (unarmedEntry s).inIrq = s.inIrq := rfl
@[simp] theorem unarmedEntry_halted (s : State) : (unarmedEntry s).halted = true := rfl
@[simp] theorem unarmedEntry_tmrArmed (s : State) : (unarmedEntry s).tmrArmed = s.tmrArmed := rfl
@[simp] theorem unarmedEntry_matchFlag (s : State) : (unarmedEntry s).matchFlag = s.matchFlag := rfl
@[simp] theorem unarmedEntry_out (s : State) : (unarmedEntry s).out = s.out := rfl
@[simp] theorem unarmedEntry_inb (s : State) : (unarmedEntry s).inb = s.inb := rfl
@[simp] theorem unarmedEntry_enable (s : State) : (unarmedEntry s).enable = s.enable := rfl
@[simp] theorem unarmedEntry_ext (s : State) : (unarmedEntry s).ext = s.ext := rfl
@[simp] theorem unarmedEntry_counter (s : State) : (unarmedEntry s).counter = s.counter := rfl
@[simp] theorem unarmedEntry_compare (s : State) : (unarmedEntry s).compare = s.compare := rfl
@[simp] theorem unarmedEntry_nextDeadline (s : State) : (unarmedEntry s).nextDeadline = s.nextDeadline := rfl
@[simp] theorem unarmedEntry_diag (s : State) : (unarmedEntry s).diag = s.diag := rfl
@[simp] theorem unarmedEntry_rptInfo (s : State) : (unarmedEntry s).rptInfo = s.rptInfo := rfl
@[simp] theorem unarmedEntry_rptVal0 (s : State) : (unarmedEntry s).rptVal0 = s.rptVal0 := rfl
@[simp] theorem unarmedEntry_rptVal1 (s : State) : (unarmedEntry s).rptVal1 = s.rptVal1 := rfl
@[simp] theorem unarmedEntry_rptCount (s : State) : (unarmedEntry s).rptCount = s.rptCount := rfl
@[simp] theorem unarmedEntry_env (s : State) : (unarmedEntry s).env = s.env := rfl

/-! ### `writeTmrCompare` -/

@[simp] theorem writeTmrCompare_par (s : State) (w : Word) : (writeTmrCompare w s).par = s.par := rfl
@[simp] theorem writeTmrCompare_arg0 (s : State) (w : Word) : (writeTmrCompare w s).arg0 = s.arg0 := rfl
@[simp] theorem writeTmrCompare_arg1 (s : State) (w : Word) : (writeTmrCompare w s).arg1 = s.arg1 := rfl
@[simp] theorem writeTmrCompare_result (s : State) (w : Word) : (writeTmrCompare w s).result = s.result := rfl
@[simp] theorem writeTmrCompare_lastCmd (s : State) (w : Word) : (writeTmrCompare w s).lastCmd = s.lastCmd := rfl
@[simp] theorem writeTmrCompare_err (s : State) (w : Word) : (writeTmrCompare w s).err = s.err := rfl
@[simp] theorem writeTmrCompare_fg (s : State) (w : Word) : (writeTmrCompare w s).fg = s.fg := rfl
@[simp] theorem writeTmrCompare_tc (s : State) (w : Word) : (writeTmrCompare w s).tc = s.tc := rfl
@[simp] theorem writeTmrCompare_armed (s : State) (w : Word) : (writeTmrCompare w s).armed = s.armed := rfl
@[simp] theorem writeTmrCompare_gie (s : State) (w : Word) : (writeTmrCompare w s).gie = s.gie := rfl
@[simp] theorem writeTmrCompare_inIrq (s : State) (w : Word) : (writeTmrCompare w s).inIrq = s.inIrq := rfl
@[simp] theorem writeTmrCompare_halted (s : State) (w : Word) : (writeTmrCompare w s).halted = s.halted := rfl
@[simp] theorem writeTmrCompare_tmrArmed (s : State) (w : Word) : (writeTmrCompare w s).tmrArmed = true := rfl
@[simp] theorem writeTmrCompare_matchFlag (s : State) (w : Word) : (writeTmrCompare w s).matchFlag = s.matchFlag := rfl
@[simp] theorem writeTmrCompare_out (s : State) (w : Word) : (writeTmrCompare w s).out = s.out := rfl
@[simp] theorem writeTmrCompare_inb (s : State) (w : Word) : (writeTmrCompare w s).inb = s.inb := rfl
@[simp] theorem writeTmrCompare_enable (s : State) (w : Word) : (writeTmrCompare w s).enable = s.enable := rfl
@[simp] theorem writeTmrCompare_ext (s : State) (w : Word) : (writeTmrCompare w s).ext = s.ext := rfl
@[simp] theorem writeTmrCompare_counter (s : State) (w : Word) : (writeTmrCompare w s).counter = s.counter := rfl
@[simp] theorem writeTmrCompare_compare (s : State) (w : Word) : (writeTmrCompare w s).compare = w := rfl
@[simp] theorem writeTmrCompare_nextDeadline (s : State) (w : Word) : (writeTmrCompare w s).nextDeadline = s.nextDeadline := rfl
@[simp] theorem writeTmrCompare_diag (s : State) (w : Word) : (writeTmrCompare w s).diag = s.diag := rfl
@[simp] theorem writeTmrCompare_rptInfo (s : State) (w : Word) : (writeTmrCompare w s).rptInfo = s.rptInfo := rfl
@[simp] theorem writeTmrCompare_rptVal0 (s : State) (w : Word) : (writeTmrCompare w s).rptVal0 = s.rptVal0 := rfl
@[simp] theorem writeTmrCompare_rptVal1 (s : State) (w : Word) : (writeTmrCompare w s).rptVal1 = s.rptVal1 := rfl
@[simp] theorem writeTmrCompare_rptCount (s : State) (w : Word) : (writeTmrCompare w s).rptCount = s.rptCount := rfl
@[simp] theorem writeTmrCompare_env (s : State) (w : Word) : (writeTmrCompare w s).env = s.env := rfl

/-! ### `fireAdvance` -/

@[simp] theorem fireAdvance_par (s : State) : (fireAdvance s).par = s.par := rfl
@[simp] theorem fireAdvance_arg0 (s : State) : (fireAdvance s).arg0 = s.arg0 := rfl
@[simp] theorem fireAdvance_arg1 (s : State) : (fireAdvance s).arg1 = s.arg1 := rfl
@[simp] theorem fireAdvance_result (s : State) : (fireAdvance s).result = s.result := rfl
@[simp] theorem fireAdvance_lastCmd (s : State) : (fireAdvance s).lastCmd = s.lastCmd := rfl
@[simp] theorem fireAdvance_err (s : State) : (fireAdvance s).err = s.err := rfl
@[simp] theorem fireAdvance_fg (s : State) : (fireAdvance s).fg = s.fg := rfl
@[simp] theorem fireAdvance_tc (s : State) : (fireAdvance s).tc = s.tc := rfl
@[simp] theorem fireAdvance_armed (s : State) : (fireAdvance s).armed = s.armed := rfl
@[simp] theorem fireAdvance_gie (s : State) : (fireAdvance s).gie = s.gie := rfl
@[simp] theorem fireAdvance_inIrq (s : State) : (fireAdvance s).inIrq = s.inIrq := rfl
@[simp] theorem fireAdvance_halted (s : State) : (fireAdvance s).halted = s.halted := rfl
@[simp] theorem fireAdvance_tmrArmed (s : State) : (fireAdvance s).tmrArmed = s.tmrArmed := rfl
@[simp] theorem fireAdvance_matchFlag (s : State) : (fireAdvance s).matchFlag = s.matchFlag := rfl
@[simp] theorem fireAdvance_out (s : State) : (fireAdvance s).out = s.out := rfl
@[simp] theorem fireAdvance_inb (s : State) : (fireAdvance s).inb = s.inb := rfl
@[simp] theorem fireAdvance_enable (s : State) : (fireAdvance s).enable = s.enable := rfl
@[simp] theorem fireAdvance_ext (s : State) : (fireAdvance s).ext = s.ext := rfl
@[simp] theorem fireAdvance_counter (s : State) : (fireAdvance s).counter = s.counter := rfl
@[simp] theorem fireAdvance_compare (s : State) : (fireAdvance s).compare = s.compare := rfl
@[simp] theorem fireAdvance_nextDeadline (s : State) : (fireAdvance s).nextDeadline = s.nextDeadline + s.par.interval := rfl
@[simp] theorem fireAdvance_diag (s : State) : (fireAdvance s).diag = s.diag := rfl
@[simp] theorem fireAdvance_rptInfo (s : State) : (fireAdvance s).rptInfo = s.rptInfo := rfl
@[simp] theorem fireAdvance_rptVal0 (s : State) : (fireAdvance s).rptVal0 = s.rptVal0 := rfl
@[simp] theorem fireAdvance_rptVal1 (s : State) : (fireAdvance s).rptVal1 = s.rptVal1 := rfl
@[simp] theorem fireAdvance_rptCount (s : State) : (fireAdvance s).rptCount = s.rptCount := rfl
@[simp] theorem fireAdvance_env (s : State) : (fireAdvance s).env = s.env := rfl

/-! ### `issueAccess` -/

@[simp] theorem issueAccess_par (s : State) (a : Access) : (issueAccess a s).par = s.par := rfl
@[simp] theorem issueAccess_arg0 (s : State) (a : Access) : (issueAccess a s).arg0 = s.arg0 := rfl
@[simp] theorem issueAccess_arg1 (s : State) (a : Access) : (issueAccess a s).arg1 = s.arg1 := rfl
@[simp] theorem issueAccess_result (s : State) (a : Access) : (issueAccess a s).result = s.result := rfl
@[simp] theorem issueAccess_lastCmd (s : State) (a : Access) : (issueAccess a s).lastCmd = s.lastCmd := rfl
@[simp] theorem issueAccess_err (s : State) (a : Access) : (issueAccess a s).err = s.err := rfl
@[simp] theorem issueAccess_fg (s : State) (a : Access) : (issueAccess a s).fg = s.fg := rfl
@[simp] theorem issueAccess_tc (s : State) (a : Access) : (issueAccess a s).tc = s.tc := rfl
@[simp] theorem issueAccess_armed (s : State) (a : Access) : (issueAccess a s).armed = s.armed := rfl
@[simp] theorem issueAccess_gie (s : State) (a : Access) : (issueAccess a s).gie = s.gie := rfl
@[simp] theorem issueAccess_inIrq (s : State) (a : Access) : (issueAccess a s).inIrq = s.inIrq := rfl
@[simp] theorem issueAccess_halted (s : State) (a : Access) : (issueAccess a s).halted = s.halted := rfl
@[simp] theorem issueAccess_tmrArmed (s : State) (a : Access) : (issueAccess a s).tmrArmed = s.tmrArmed := rfl
@[simp] theorem issueAccess_matchFlag (s : State) (a : Access) : (issueAccess a s).matchFlag = s.matchFlag := rfl
@[simp] theorem issueAccess_out (s : State) (a : Access) : (issueAccess a s).out = s.out := rfl
@[simp] theorem issueAccess_inb (s : State) (a : Access) : (issueAccess a s).inb = s.inb := rfl
@[simp] theorem issueAccess_enable (s : State) (a : Access) : (issueAccess a s).enable = s.enable := rfl
@[simp] theorem issueAccess_ext (s : State) (a : Access) : (issueAccess a s).ext = s.ext := rfl
@[simp] theorem issueAccess_counter (s : State) (a : Access) : (issueAccess a s).counter = s.counter := rfl
@[simp] theorem issueAccess_compare (s : State) (a : Access) : (issueAccess a s).compare = s.compare := rfl
@[simp] theorem issueAccess_nextDeadline (s : State) (a : Access) : (issueAccess a s).nextDeadline = s.nextDeadline := rfl
@[simp] theorem issueAccess_diag (s : State) (a : Access) : (issueAccess a s).diag = s.diag := rfl
@[simp] theorem issueAccess_rptInfo (s : State) (a : Access) : (issueAccess a s).rptInfo = s.rptInfo := rfl
@[simp] theorem issueAccess_rptVal0 (s : State) (a : Access) : (issueAccess a s).rptVal0 = s.rptVal0 := rfl
@[simp] theorem issueAccess_rptVal1 (s : State) (a : Access) : (issueAccess a s).rptVal1 = s.rptVal1 := rfl
@[simp] theorem issueAccess_rptCount (s : State) (a : Access) : (issueAccess a s).rptCount = s.rptCount := rfl
@[simp] theorem issueAccess_env (s : State) (a : Access) : (issueAccess a s).env = { s.env with hostQueue := s.env.hostQueue ++ [a] } := rfl

/-! ### `setExt` -/

@[simp] theorem setExt_par (s : State) (w : Word) : (setExt w s).par = s.par := rfl
@[simp] theorem setExt_arg0 (s : State) (w : Word) : (setExt w s).arg0 = s.arg0 := rfl
@[simp] theorem setExt_arg1 (s : State) (w : Word) : (setExt w s).arg1 = s.arg1 := rfl
@[simp] theorem setExt_result (s : State) (w : Word) : (setExt w s).result = s.result := rfl
@[simp] theorem setExt_lastCmd (s : State) (w : Word) : (setExt w s).lastCmd = s.lastCmd := rfl
@[simp] theorem setExt_err (s : State) (w : Word) : (setExt w s).err = s.err := rfl
@[simp] theorem setExt_fg (s : State) (w : Word) : (setExt w s).fg = s.fg := rfl
@[simp] theorem setExt_tc (s : State) (w : Word) : (setExt w s).tc = s.tc := rfl
@[simp] theorem setExt_armed (s : State) (w : Word) : (setExt w s).armed = s.armed := rfl
@[simp] theorem setExt_gie (s : State) (w : Word) : (setExt w s).gie = s.gie := rfl
@[simp] theorem setExt_inIrq (s : State) (w : Word) : (setExt w s).inIrq = s.inIrq := rfl
@[simp] theorem setExt_halted (s : State) (w : Word) : (setExt w s).halted = s.halted := rfl
@[simp] theorem setExt_tmrArmed (s : State) (w : Word) : (setExt w s).tmrArmed = s.tmrArmed := rfl
@[simp] theorem setExt_matchFlag (s : State) (w : Word) : (setExt w s).matchFlag = s.matchFlag := rfl
@[simp] theorem setExt_out (s : State) (w : Word) : (setExt w s).out = s.out := rfl
@[simp] theorem setExt_inb (s : State) (w : Word) : (setExt w s).inb = s.inb := rfl
@[simp] theorem setExt_enable (s : State) (w : Word) : (setExt w s).enable = s.enable := rfl
@[simp] theorem setExt_ext (s : State) (w : Word) : (setExt w s).ext = w := rfl
@[simp] theorem setExt_counter (s : State) (w : Word) : (setExt w s).counter = s.counter := rfl
@[simp] theorem setExt_compare (s : State) (w : Word) : (setExt w s).compare = s.compare := rfl
@[simp] theorem setExt_nextDeadline (s : State) (w : Word) : (setExt w s).nextDeadline = s.nextDeadline := rfl
@[simp] theorem setExt_diag (s : State) (w : Word) : (setExt w s).diag = s.diag := rfl
@[simp] theorem setExt_rptInfo (s : State) (w : Word) : (setExt w s).rptInfo = s.rptInfo := rfl
@[simp] theorem setExt_rptVal0 (s : State) (w : Word) : (setExt w s).rptVal0 = s.rptVal0 := rfl
@[simp] theorem setExt_rptVal1 (s : State) (w : Word) : (setExt w s).rptVal1 = s.rptVal1 := rfl
@[simp] theorem setExt_rptCount (s : State) (w : Word) : (setExt w s).rptCount = s.rptCount := rfl
@[simp] theorem setExt_env (s : State) (w : Word) : (setExt w s).env = s.env := rfl

/-! ### `takeTurn`: only the model's own fields move -/

@[simp] theorem takeTurn_par (s : State) : (takeTurn s).par = s.par := by
  unfold takeTurn; split <;> rfl
@[simp] theorem takeTurn_arg0 (s : State) : (takeTurn s).arg0 = s.arg0 := by
  unfold takeTurn; split <;> rfl
@[simp] theorem takeTurn_arg1 (s : State) : (takeTurn s).arg1 = s.arg1 := by
  unfold takeTurn; split <;> rfl
@[simp] theorem takeTurn_result (s : State) : (takeTurn s).result = s.result := by
  unfold takeTurn; split <;> rfl
@[simp] theorem takeTurn_lastCmd (s : State) : (takeTurn s).lastCmd = s.lastCmd := by
  unfold takeTurn; split <;> rfl
@[simp] theorem takeTurn_err (s : State) : (takeTurn s).err = s.err := by
  unfold takeTurn; split <;> rfl
@[simp] theorem takeTurn_fg (s : State) : (takeTurn s).fg = s.fg := by
  unfold takeTurn; split <;> rfl
@[simp] theorem takeTurn_tc (s : State) : (takeTurn s).tc = s.tc := by
  unfold takeTurn; split <;> rfl
@[simp] theorem takeTurn_armed (s : State) : (takeTurn s).armed = s.armed := by
  unfold takeTurn; split <;> rfl
@[simp] theorem takeTurn_gie (s : State) : (takeTurn s).gie = s.gie := by
  unfold takeTurn; split <;> rfl
@[simp] theorem takeTurn_inIrq (s : State) : (takeTurn s).inIrq = s.inIrq := by
  unfold takeTurn; split <;> rfl
@[simp] theorem takeTurn_halted (s : State) : (takeTurn s).halted = s.halted := by
  unfold takeTurn; split <;> rfl
@[simp] theorem takeTurn_tmrArmed (s : State) : (takeTurn s).tmrArmed = s.tmrArmed := by
  unfold takeTurn; split <;> rfl
@[simp] theorem takeTurn_matchFlag (s : State) : (takeTurn s).matchFlag = s.matchFlag := by
  unfold takeTurn; split <;> rfl
@[simp] theorem takeTurn_out (s : State) : (takeTurn s).out = s.out := by
  unfold takeTurn; split <;> rfl
@[simp] theorem takeTurn_inb (s : State) : (takeTurn s).inb = s.inb := by
  unfold takeTurn; split <;> rfl
@[simp] theorem takeTurn_enable (s : State) : (takeTurn s).enable = s.enable := by
  unfold takeTurn; split <;> rfl
@[simp] theorem takeTurn_ext (s : State) : (takeTurn s).ext = s.ext := by
  unfold takeTurn; split <;> rfl
@[simp] theorem takeTurn_counter (s : State) : (takeTurn s).counter = s.counter := by
  unfold takeTurn; split <;> rfl
@[simp] theorem takeTurn_compare (s : State) : (takeTurn s).compare = s.compare := by
  unfold takeTurn; split <;> rfl
@[simp] theorem takeTurn_nextDeadline (s : State) : (takeTurn s).nextDeadline = s.nextDeadline := by
  unfold takeTurn; split <;> rfl
@[simp] theorem takeTurn_diag (s : State) : (takeTurn s).diag = s.diag := by
  unfold takeTurn; split <;> rfl
@[simp] theorem takeTurn_rptInfo (s : State) : (takeTurn s).rptInfo = s.rptInfo := by
  unfold takeTurn; split <;> rfl
@[simp] theorem takeTurn_rptVal0 (s : State) : (takeTurn s).rptVal0 = s.rptVal0 := by
  unfold takeTurn; split <;> rfl
@[simp] theorem takeTurn_rptVal1 (s : State) : (takeTurn s).rptVal1 = s.rptVal1 := by
  unfold takeTurn; split <;> rfl
@[simp] theorem takeTurn_rptCount (s : State) : (takeTurn s).rptCount = s.rptCount := by
  unfold takeTurn; split <;> rfl
@[simp] theorem takeTurn_draws (s : State) : (takeTurn s).env.draws = s.env.draws := by
  unfold takeTurn; split <;> rfl
@[simp] theorem takeTurn_hostQueue (s : State) : (takeTurn s).env.hostQueue = s.env.hostQueue := by
  unfold takeTurn; split <;> rfl
@[simp] theorem takeTurn_hostReply (s : State) : (takeTurn s).env.hostReply = s.env.hostReply := by
  unfold takeTurn; split <;> rfl
@[simp] theorem takeTurn_cpTaken (s : State) : (takeTurn s).env.cpTaken = s.env.cpTaken := by
  unfold takeTurn; split <;> rfl

theorem takeTurn_cons (s : State) (e : Event) (rest : List Event) (h : s.env.sched = e :: rest) :
    takeTurn s = { s with env := { s.env with sched := rest } } := by
  unfold takeTurn; rw [h]

theorem nextEvent_cons (s : State) (e : Event) (rest : List Event) (h : s.env.sched = e :: rest) :
    nextEvent s = e := by
  unfold nextEvent; rw [h]

/-- The turn-taking does not touch what a claim about the block reads: every predicate of the block's own fields is
kept. -/
@[simp] theorem takeTurn_fgMayStep (s : State) : (takeTurn s).fgMayStep = s.fgMayStep := by
  simp [State.fgMayStep]

@[simp] theorem takeTurn_portFree (s : State) : (takeTurn s).portFree = s.portFree := by
  simp [State.portFree]

end Sys2Proof.Machine
end

