-- ==== Sys2Proof/Laws/Ops.lean ====
section
/-!
SUPPORT. One lemma for each shared operation that says everything it can do; proofs cite these instead of unfolding
the operation.
-/

namespace Sys2Proof.Machine

/-! ### The foreground's micro-step -/

theorem microStep_busy (i : Instr) (body : FgRecord → Answer) (s : State) (r : FgRecord)
    (hm : s.fgMayStep = true) (hf : s.fg = .busy r) (hi : r.instr = i) : microStep i body s = body r := by
  simp [microStep, hm, hf, hi]

theorem microStep_idle (i : Instr) (body : FgRecord → Answer) (s : State)
    (hm : s.fgMayStep = true) (hf : s.fg = .idle) : microStep i body s = body (launchRecord i s) := by
  simp [microStep, hm, hf]

theorem microStep_blocked (i : Instr) (body : FgRecord → Answer) (s : State)
    (hm : s.fgMayStep = false) : microStep i body s = .next s := by
  simp [microStep, hm]

/-- Everything a micro-step that answers a next state can have done. -/
theorem microStep_next {i : Instr} {body : FgRecord → Answer} {s t : State} (h : microStep i body s = .next t) :
    (s.fgMayStep = false ∧ t = s) ∨
      ∃ r, s.fgMayStep = true ∧ r.instr = i ∧ (s.fg = .busy r ∨ s.fg = .idle ∧ r = launchRecord i s) ∧
        body r = .next t := by
  unfold microStep at h
  split at h
  · rename_i hm
    split at h
    · exact .inr ⟨_, hm, rfl, .inr ⟨‹_›, rfl⟩, h⟩
    · split at h
      · exact .inr ⟨_, hm, ‹_›, .inl ‹_›, h⟩
      · cases h
  · rename_i hm
    cases h
    exact .inl ⟨by simpa using hm, rfl⟩

/-! ### Register accesses -/

theorem readMbxData_cases (s : State) :
    (∃ w rest, s.inb = w :: rest ∧ readMbxData s = (w, { s with inb := rest })) ∨
      (s.inb = [] ∧ readMbxData s =
        (Config.freeWord s.env.draws, { s with env := { s.env with draws := s.env.draws + 1 } })) := by
  unfold readMbxData
  split
  · exact .inl ⟨_, _, ‹_›, rfl⟩
  · exact .inr ⟨‹_›, rfl⟩

/-- Only `MBX_DATA` has a read side effect (20_memory.md R99). -/
theorem regRead_state (r : Reg) (s : State) (h : r ≠ .mbxData) : (regRead r s).2 = s := by
  cases r <;> first | rfl | exact absurd rfl h

theorem writeMbxData_cases (w : Word) (s : State) :
    (s.out.length < s.par.mbxDepth ∧ writeMbxData w s = { s with out := s.out ++ [w] }) ∨
      (s.par.mbxDepth ≤ s.out.length ∧ writeMbxData w s = s) := by
  unfold writeMbxData
  split
  · exact .inl ⟨‹_›, rfl⟩
  · exact .inr ⟨by omega, rfl⟩

theorem writeTmrMatch_cases (w : Word) (s : State) :
    (w.getLsbD 0 = true ∧ writeTmrMatch w s = { s with matchFlag := false }) ∨
      (w.getLsbD 0 = false ∧ writeTmrMatch w s = s) := by
  unfold writeTmrMatch
  split
  · exact .inl ⟨‹_›, rfl⟩
  · exact .inr ⟨eq_false_of_ne_true ‹_›, rfl⟩

theorem writeOpCmd_cases (w : Word) (s : State) :
    (∃ i, decode w = .legal i ∧ writeOpCmd w s = { s with lastCmd := w, fg := .busy (launchRecord i s) }) ∨
      (∃ why, decode w = .illegal why ∧ writeOpCmd w s = { s with lastCmd := w, err := 1 }) := by
  unfold writeOpCmd
  cases h : decode w with
  | legal i => exact .inl ⟨i, rfl, rfl⟩
  | illegal why => exact .inr ⟨why, rfl, rfl⟩

/-! ### The mailbox micro-steps -/

/-- `S1` of `MBX.RECV`, its two outcomes (40_mailbox.md R143). -/
theorem recvPoll_cases (s : State) (r : FgRecord) :
    (r.n = r.a0 ∧ recvPoll s r = ({ s with result := recvSentinel } : State).finish 2) ∨
      (r.n ≠ r.a0 ∧ recvPoll s r =
        s.goto { r with n := r.n + 1, t := s.mbxStatus } (if s.mbxStatus = 0 then .s1 else .s2)) := by
  by_cases h : r.n = r.a0
  · exact .inl ⟨h, if_pos h⟩
  · exact .inr ⟨h, if_neg h⟩

/-- `S2` of `MBX.RECV`, its two outcomes (40_mailbox.md R143). -/
theorem recvTake_cases (ch : Channel) (s : State) (r : FgRecord) (w : Word) (u : State)
    (h : readMbxData s = (w, u)) :
    (channelOf w = ch ∧ recvTake ch s r = ({ u with result := payloadOf w } : State).finish 0) ∨
      (channelOf w ≠ ch ∧ recvTake ch s r = u.goto { r with t := w } .s1) := by
  have hr : regRead .mbxData s = (w, u) := h
  unfold recvTake
  simp only [hr]
  split
  · exact .inl ⟨‹_›, rfl⟩
  · exact .inr ⟨‹_›, rfl⟩

/-! ### Environment steps -/

theorem cpPop_cases (s : State) :
    (∃ w rest, s.out = w :: rest ∧
        cpPop s = { s with out := rest, env := { s.env with cpTaken := some w } }) ∨
      (s.out = [] ∧ cpPop s = s) := by
  unfold cpPop
  split
  · exact .inl ⟨_, _, ‹_›, rfl⟩
  · exact .inr ⟨‹_›, rfl⟩

theorem cpPush_cases (w : Word) (s : State) :
    (s.inb.length < s.par.mbxDepth ∧ cpPush w s = { s with inb := s.inb ++ [w] }) ∨
      (s.par.mbxDepth ≤ s.inb.length ∧ cpPush w s = s) := by
  unfold cpPush
  split
  · exact .inl ⟨‹_›, rfl⟩
  · exact .inr ⟨by omega, rfl⟩

theorem tick_cases (s : State) :
    (s.tmrArmed = true ∧ s.counter + 1 = s.compare ∧
        tick s = { s with counter := s.counter + 1, matchFlag := true, tmrArmed := false }) ∨
      (¬ (s.tmrArmed = true ∧ s.counter + 1 = s.compare) ∧ tick s = { s with counter := s.counter + 1 }) := by
  by_cases h : s.tmrArmed = true ∧ s.counter + 1 = s.compare
  · exact .inl ⟨h.1, h.2, if_pos h⟩
  · exact .inr ⟨h, if_neg h⟩

theorem acceptIrq_cases (s : State) :
    (s.irqAcceptable = true ∧ acceptIrq s = takeTrap irqTag 0 0 s) ∨
      (s.irqAcceptable = false ∧ acceptIrq s = s) := by
  unfold acceptIrq
  split
  · exact .inl ⟨‹_›, rfl⟩
  · exact .inr ⟨eq_false_of_ne_true ‹_›, rfl⟩

theorem presentTrap_cases (tag : Tag) (syn far : Word) (s : State) :
    (tag ≠ irqTag ∧ s.halted = false ∧ presentTrap tag syn far s = takeTrap tag syn far s) ∨
      (tag = irqTag ∧ s.irqAcceptable = true ∧ presentTrap tag syn far s = takeTrap irqTag 0 0 s) ∨
      presentTrap tag syn far s = s := by
  unfold presentTrap
  split
  · split
    · exact .inr (.inl ⟨‹_›, ‹_›, rfl⟩)
    · exact .inr (.inr rfl)
  · split
    · exact .inr (.inr rfl)
    · exact .inl ⟨‹_›, eq_false_of_ne_true ‹_›, rfl⟩

/-- Where the interrupt is acceptable the trap context is free and the block runs (60_exceptions.md R224). -/
theorem irqAcceptable_spec {s : State} (h : s.irqAcceptable = true) :
    s.irqOut = true ∧ s.gie = true ∧ s.tc = none ∧ s.halted = false := by
  simpa [State.irqAcceptable, State.irqMasked, Bool.and_eq_true, and_assoc] using h

/-! ### The trap context's micro-step -/

/-- `T0`, each of its three outcomes (41_vector_dispatch.md R163). -/
theorem trapEntry_cases (r : TcRecord) (s : State) :
    (s.armed = false ∧ trapEntry r s = unarmedEntry s) ∨
      (s.armed = true ∧ r.tag ≠ irqTag ∧ trapEntry r s = fatalEntry r.tag r.syn r.far s) ∨
      (s.armed = true ∧ r.tag = irqTag ∧ trapEntry r s = irqEntry r s) := by
  unfold trapEntry vectorRoute
  cases ha : s.armed with
  | false => exact .inl ⟨rfl, by simp⟩
  | true =>
    by_cases ht : r.tag = irqTag
    · exact .inr (.inr ⟨rfl, ht, by simp [ht]⟩)
    · exact .inr (.inl ⟨rfl, ht, by simp [ht]⟩)

/-- `T1`: one comparison of the whole word (41_vector_dispatch.md R167). -/
theorem trapMatch_eq (r : TcRecord) (s : State) :
    trapMatch r s = { s with
      tc := some { r with t := s.pending, step := if s.pending = timerBit s.par then .f1 else .t2 } } := by
  unfold trapMatch
  simp only [regRead, shows, State.tcGoto, routeOf, routeTable, List.lookup]
  by_cases h : s.pending = timerBit s.par
  · simp [h]
  · have hb : (s.pending == timerBit s.par) = false := by simpa using h
    simp [h, hb]

/-! ### The port -/

/-- The port's turn, each of its outcomes (20_memory.md R71, R98). -/
theorem hostTurn_cases (s : State) :
    hostTurn s = .next s ∨
      ∃ a rest, s.env.hostQueue = a :: rest ∧ s.portFree = true ∧
        hostTurn s = serveAccess a { s with env := { s.env with hostQueue := rest } } := by
  unfold hostTurn
  cases h : s.env.hostQueue with
  | nil => exact .inl rfl
  | cons a rest =>
    by_cases hp : s.portFree = true
    · exact .inr ⟨a, rest, rfl, hp, by simp [hp]⟩
    · exact .inl (by simp [hp])

/-- A served access that answers a next state read or wrote one register. -/
theorem serveAccess_next {a : Access} {s t : State} (h : serveAccess a s = .next t) :
    ∃ r, t = (regRead r s).2.answer (.value (regRead r s).1) ∨ ∃ w, t = (regWrite r w s).answer .written := by
  unfold serveAccess at h
  split at h <;> split at h <;> cases h
  · exact ⟨_, .inl rfl⟩
  · exact ⟨_, .inr ⟨_, rfl⟩⟩

/-- When the foreground can step: an operation is in flight and neither the trap context nor a halt holds it
(60_exceptions.md R241). -/
theorem fgCanStep_iff (s : State) :
    s.fgCanStep = true ↔ s.fg ≠ .idle ∧ s.tc = none ∧ s.halted = false := by
  simp [State.fgCanStep, State.fgMayStep]
  tauto

/-- When the trap context can step: it is active and the block is not halted (60_exceptions.md R241). -/
theorem tcCanStep_iff (s : State) : s.tcCanStep = true ↔ s.tc ≠ none ∧ s.halted = false := by
  simp [State.tcCanStep, Option.isSome_iff_ne_none]

/-- A free port means idle contexts of a running block (20_memory.md R98). -/
theorem portFree_spec {s : State} (h : s.portFree = true) : s.fg = .idle ∧ s.tc = none ∧ s.halted = false := by
  simpa [State.portFree, Bool.and_eq_true, and_assoc] using h

end Sys2Proof.Machine
end

