-- ==== Sys2Proof/Laws/PerInstr.lean ====
section
/-!
SUPPORT. Statements about every operation as syntax, one lemma per constructor. The family `Encoding`: the three fields
of an operation's command word (30_encoding.md R102, R104, R105).
-/

namespace Sys2Proof.Laws.Encoding

/-- The fields of the command word of `i` are its opcode, its selector and zero. -/
def Statement (i : Instr) : Prop :=
  opField (encode i) = opcode i ∧ selField (encode i) = selector i ∧ zeroField (encode i) = 0#23

/-- The fields of any word put together from an opcode and a selector. -/
theorem fields_commandWord (op : BitVec 4) (sel : BitVec 5) :
    opField (commandWord op sel) = op ∧ selField (commandWord op sel) = sel ∧
      zeroField (commandWord op sel) = 0#23 := (eq_commandWord_iff _ op sel).1 rfl

theorem vecInit : Statement .vecInit := fields_commandWord _ _

theorem tmrInit : Statement .tmrInit := fields_commandWord _ _

theorem icgEnable (line : Line) : Statement (.icgEnable line) := fields_commandWord _ _

theorem irqUnmask : Statement .irqUnmask := fields_commandWord _ _

theorem mbxSend (ch : Channel) : Statement (.mbxSend ch) := fields_commandWord _ _

theorem mbxRecv (ch : Channel) : Statement (.mbxRecv ch) := fields_commandWord _ _

theorem trap (tag : Tag) : Statement (.trap tag) := fields_commandWord _ _

end Sys2Proof.Laws.Encoding
end

