-- ==== Sys2Proof/Laws/Step.lean ====
section
/-!
SUPPORT. Everything a step can do, said once: one constructor for each micro-step of a context and for each effect
of the register port, and the lemmas that read them off a turn that answers a next state. Claims about every step are
a case analysis over these.
-/

namespace Sys2Proof.Machine

/-- The micro-steps of the foreground, from `s` in the record `r`. -/
inductive ForegroundMove (s : State) (r : FgRecord) : State → Prop
  | vecInit (hi : r.instr = .vecInit) (hs : r.step = .s1) :
      ForegroundMove s r { s with armed := true, err := 0, fg := .idle }
  | icgEnable (line : Line) (hi : r.instr = .icgEnable line) (hs : r.step = .s1) :
      ForegroundMove s r { s with enable := s.enable ||| lineMask line, err := 0, fg := .idle }
  | irqUnmask (hi : r.instr = .irqUnmask) (hs : r.step = .s1) :
      ForegroundMove s r { s with gie := true, err := 0, fg := .idle }
  | sendPoll (ch : Channel) (hi : r.instr = .mbxSend ch) (hs : r.step = .s1) :
      ForegroundMove s r { s with
        fg := .busy { r with t := s.mbxStatus, step := if s.mbxStatus.getLsbD 31 then .s1 else .s2 } }
  | sendWrite (ch : Channel) (hi : r.instr = .mbxSend ch) (hs : r.step = .s2)
      (hl : s.out.length < s.par.mbxDepth) :
      ForegroundMove s r { s with out := s.out ++ [taggedWord ch r.a0], err := 0, fg := .idle }
  | sendDrop (ch : Channel) (hi : r.instr = .mbxSend ch) (hs : r.step = .s2)
      (hl : s.par.mbxDepth ≤ s.out.length) :
      ForegroundMove s r { s with err := 0, fg := .idle }
  | recvBound (ch : Channel) (hi : r.instr = .mbxRecv ch) (hs : r.step = .s1) (hn : r.n = r.a0) :
      ForegroundMove s r { s with result := recvSentinel, err := 2, fg := .idle }
  | recvPoll (ch : Channel) (hi : r.instr = .mbxRecv ch) (hs : r.step = .s1) (hn : r.n ≠ r.a0) :
      ForegroundMove s r { s with
        fg := .busy { r with n := r.n + 1, t := s.mbxStatus, step := if s.mbxStatus = 0 then .s1 else .s2 } }
  | recvKeep (ch : Channel) (w : Word) (rest : List Word) (hi : r.instr = .mbxRecv ch) (hs : r.step = .s2)
      (hb : s.inb = w :: rest) (hc : channelOf w = ch) :
      ForegroundMove s r { s with inb := rest, result := payloadOf w, err := 0, fg := .idle }
  | recvLose (ch : Channel) (w : Word) (rest : List Word) (hi : r.instr = .mbxRecv ch) (hs : r.step = .s2)
      (hb : s.inb = w :: rest) (hc : channelOf w ≠ ch) :
      ForegroundMove s r { s with inb := rest, fg := .busy { r with t := w, step := .s1 } }
  | recvKeepFree (ch : Channel) (hi : r.instr = .mbxRecv ch) (hs : r.step = .s2)
      (hb : s.inb = []) (hc : channelOf (Config.freeWord s.env.draws) = ch) :
      ForegroundMove s r { s with
        env := { s.env with draws := s.env.draws + 1 }
        result := payloadOf (Config.freeWord s.env.draws), err := 0, fg := .idle }
  | recvLoseFree (ch : Channel) (hi : r.instr = .mbxRecv ch) (hs : r.step = .s2)
      (hb : s.inb = []) (hc : channelOf (Config.freeWord s.env.draws) ≠ ch) :
      ForegroundMove s r { s with
        env := { s.env with draws := s.env.draws + 1 }
        fg := .busy { r with t := Config.freeWord s.env.draws, step := .s1 } }
  | initRead (hi : r.instr = .tmrInit) (hs : r.step = .s1) :
      ForegroundMove s r { s with fg := .busy { r with t := s.counter, step := .s2 } }
  | initProgram (hi : r.instr = .tmrInit) (hs : r.step = .s2) :
      ForegroundMove s r { s with
        compare := r.t + s.par.interval, tmrArmed := true
        fg := .busy { r with t := r.t + s.par.interval, step := .s3 } }
  | initStore (hi : r.instr = .tmrInit) (hs : r.step = .s3) :
      ForegroundMove s r { s with nextDeadline := r.t, err := 0, fg := .idle }
  | trap (tag : Tag) (hi : r.instr = .trap tag) (hs : r.step = .s1) :
      ForegroundMove s r { s with tc := some (trapRecord tag r.a0 r.a1), err := 0, fg := .idle }

/-- A meaning that answers a next state made one of the micro-steps, or the foreground may not step. -/
theorem exec_move {i : Instr} {s t : State} (h : exec i s = .next t) :
    (s.fgMayStep = false ∧ t = s) ∨
      ∃ r, s.fgMayStep = true ∧ r.instr = i ∧ (s.fg = .busy r ∨ s.fg = .idle ∧ r = launchRecord i s) ∧
        ForegroundMove s r t := by
  cases i with
  | vecInit =>
    obtain h | ⟨r, hm, hi, hf, hb⟩ := microStep_next h
    · exact .inl h
    · refine .inr ⟨r, hm, hi, hf, ?_⟩
      unfold vecInitStep at hb
      split at hb <;> cases hb
      exact .vecInit hi ‹_›
  | irqUnmask =>
    obtain h | ⟨r, hm, hi, hf, hb⟩ := microStep_next h
    · exact .inl h
    · refine .inr ⟨r, hm, hi, hf, ?_⟩
      unfold unmaskStep at hb
      split at hb <;> cases hb
      exact .irqUnmask hi ‹_›
  | icgEnable line =>
    obtain h | ⟨r, hm, hi, hf, hb⟩ := microStep_next h
    · exact .inl h
    · refine .inr ⟨r, hm, hi, hf, ?_⟩
      unfold enableStep at hb
      split at hb <;> cases hb
      exact .icgEnable line hi ‹_›
  | trap tag =>
    obtain h | ⟨r, hm, hi, hf, hb⟩ := microStep_next h
    · exact .inl h
    · refine .inr ⟨r, hm, hi, hf, ?_⟩
      unfold trapStart at hb
      split at hb <;> cases hb
      exact .trap tag hi ‹_›
  | tmrInit =>
    obtain h | ⟨r, hm, hi, hf, hb⟩ := microStep_next h
    · exact .inl h
    · refine .inr ⟨r, hm, hi, hf, ?_⟩
      unfold initStep at hb
      split at hb <;> cases hb
      · exact .initRead hi ‹_›
      · exact .initProgram hi ‹_›
      · exact .initStore hi ‹_›
  | mbxSend ch =>
    obtain h | ⟨r, hm, hi, hf, hb⟩ := microStep_next h
    · exact .inl h
    · refine .inr ⟨r, hm, hi, hf, ?_⟩
      unfold sendStep at hb
      split at hb <;> cases hb
      · exact .sendPoll ch hi ‹_›
      · obtain ⟨hl, hw⟩ | ⟨hl, hw⟩ := writeMbxData_cases (taggedWord ch r.a0) s
        · simp only [regWrite, hw]
          exact .sendWrite ch hi ‹_› hl
        · simp only [regWrite, hw]
          exact .sendDrop ch hi ‹_› hl
  | mbxRecv ch =>
    obtain h | ⟨r, hm, hi, hf, hb⟩ := microStep_next h
    · exact .inl h
    · refine .inr ⟨r, hm, hi, hf, ?_⟩
      unfold recvStep at hb
      split at hb <;> cases hb
      · obtain ⟨hn, hw⟩ | ⟨hn, hw⟩ := recvPoll_cases s r
        · rw [hw]
          exact .recvBound ch hi ‹_› hn
        · rw [hw]
          exact .recvPoll ch hi ‹_› hn
      · obtain ⟨w, rest, hl, hr⟩ | ⟨hl, hr⟩ := readMbxData_cases s
        · obtain ⟨hc, hw⟩ | ⟨hc, hw⟩ := recvTake_cases ch s r _ _ hr
          · rw [hw]
            exact .recvKeep ch w rest hi ‹_› hl hc
          · rw [hw]
            exact .recvLose ch w rest hi ‹_› hl hc
        · obtain ⟨hc, hw⟩ | ⟨hc, hw⟩ := recvTake_cases ch s r _ _ hr
          · rw [hw]
            exact .recvKeepFree ch hi ‹_› hl hc
          · rw [hw]
            exact .recvLoseFree ch hi ‹_› hl hc

/-- The foreground's turn, all it can do. -/
theorem foregroundTurn_move {s t : State} (h : foregroundTurn s = .next t) :
    (t = s ∧ (s.fg = .idle ∨ s.fgMayStep = false)) ∨
      ∃ r, s.fg = .busy r ∧ s.fgMayStep = true ∧ ForegroundMove s r t := by
  unfold foregroundTurn at h
  split at h
  · cases h
    exact .inl ⟨rfl, .inl ‹_›⟩
  · obtain ⟨hm, rfl⟩ | ⟨r, hm, -, hf, hv⟩ := exec_move h
    · exact .inl ⟨rfl, .inr hm⟩
    · refine .inr ⟨r, ?_, hm, hv⟩
      obtain hf | ⟨hf, -⟩ := hf
      · exact hf
      · simp_all

/-- The micro-steps of the trap context, from `s` in the record `r`. -/
inductive TrapMove (s : State) (r : TcRecord) : State → Prop
  | unarmed (hs : r.step = .t0) (ha : s.armed = false) : TrapMove s r { s with halted := true, err := 3 }
  | fatal (hs : r.step = .t0) (ha : s.armed = true) (ht : r.tag ≠ irqTag) :
      TrapMove s r (fatalEntry r.tag r.syn r.far s)
  | irq (hs : r.step = .t0) (ha : s.armed = true) (ht : r.tag = irqTag) :
      TrapMove s r { s with inIrq := true, tc := some { r with step := .t1 } }
  | route (hs : r.step = .t1) :
      TrapMove s r { s with
        tc := some { r with t := s.pending, step := if s.pending = timerBit s.par then .f1 else .t2 } }
  | report (hs : r.step = .t2) :
      TrapMove s r { s.emit (pendingReport r.t) with tc := some { r with step := .t3 } }
  | advance (hs : r.step = .f1) :
      TrapMove s r { s with
        nextDeadline := s.nextDeadline + s.par.interval, tc := some { r with step := .f2 } }
  | reprogram (hs : r.step = .f2) :
      TrapMove s r { s with compare := s.nextDeadline, tmrArmed := true, tc := some { r with step := .f3 } }
  | acknowledge (hs : r.step = .f3) :
      TrapMove s r { s with matchFlag := false, tc := some { r with step := .t3 } }
  | back (hs : r.step = .t3) : TrapMove s r { s with inIrq := false, tc := none }

/-- The trap context's turn, all it can do. -/
theorem trapTurn_move {s t : State} (h : trapTurn s = .next t) :
    (t = s ∧ (s.tc = none ∨ s.halted = true)) ∨
      ∃ r, s.tc = some r ∧ s.halted = false ∧ TrapMove s r t := by
  unfold trapTurn at h
  split at h
  · cases h
    exact .inl ⟨rfl, .inl ‹_›⟩
  · rename_i r hr
    split at h
    · split at h <;> cases h
      exact .inl ⟨rfl, .inr ‹_›⟩
    · cases h
      refine .inr ⟨r, hr, eq_false_of_ne_true ‹_›, ?_⟩
      unfold trapStep
      split
      · obtain ⟨ha, he⟩ | ⟨ha, ht, he⟩ | ⟨ha, ht, he⟩ := trapEntry_cases r s
        · rw [he]
          exact .unarmed ‹_› ha
        · rw [he]
          exact .fatal ‹_› ha ht
        · rw [he]
          exact .irq ‹_› ha ht
      · rw [trapMatch_eq]
        exact .route ‹_›
      · exact .report ‹_›
      · exact .advance ‹_›
      · exact .reprogram ‹_›
      · exact .acknowledge ‹_›
      · exact .back ‹_›

/-- What the register port can do to the block's state, before it answers. -/
inductive PortMove (s : State) : State → Prop
  | unchanged : PortMove s s
  | pop (w : Word) (rest : List Word) (hb : s.inb = w :: rest) : PortMove s { s with inb := rest }
  | draw (hb : s.inb = []) : PortMove s { s with env := { s.env with draws := s.env.draws + 1 } }
  | push (w : Word) (hl : s.out.length < s.par.mbxDepth) : PortMove s { s with out := s.out ++ [w] }
  | enable (w : Word) : PortMove s { s with enable := w }
  | compare (w : Word) : PortMove s { s with compare := w, tmrArmed := true }
  | acknowledge : PortMove s { s with matchFlag := false }
  | arg0 (w : Word) : PortMove s { s with arg0 := w }
  | arg1 (w : Word) : PortMove s { s with arg1 := w }
  | launch (w : Word) (i : Instr) (hd : decode w = .legal i) :
      PortMove s { s with lastCmd := w, fg := .busy (launchRecord i s) }
  | illegal (w : Word) (why : Reject) (hd : decode w = .illegal why) :
      PortMove s { s with lastCmd := w, err := 1 }

/-- The port's move leaves the held accesses as they are. -/
theorem PortMove.hostQueue {s t : State} (h : PortMove s t) : t.env.hostQueue = s.env.hostQueue := by
  cases h <;> rfl

theorem regRead_move (r : Reg) (s : State) : PortMove s (regRead r s).2 := by
  by_cases h : r = .mbxData
  · subst h
    obtain ⟨w, rest, hb, hr⟩ | ⟨hb, hr⟩ := readMbxData_cases s
    · simp only [regRead, hr]
      exact .pop w rest hb
    · simp only [regRead, hr]
      exact .draw hb
  · rw [regRead_state r s h]
    exact .unchanged

theorem regWrite_move (r : Reg) (w : Word) (s : State) : PortMove s (regWrite r w s) := by
  cases r with
  | mbxData =>
    obtain ⟨hl, hw⟩ | ⟨-, hw⟩ := writeMbxData_cases w s
    · simp only [regWrite, hw]
      exact .push w hl
    · simp only [regWrite, hw]
      exact .unchanged
  | icgEnable => exact .enable w
  | tmrCompare => exact .compare w
  | tmrMatch =>
    obtain ⟨-, hw⟩ | ⟨-, hw⟩ := writeTmrMatch_cases w s
    · simp only [regWrite, hw]
      exact .acknowledge
    · simp only [regWrite, hw]
      exact .unchanged
  | opArg0 => exact .arg0 w
  | opArg1 => exact .arg1 w
  | opCmd =>
    obtain ⟨i, hd, hw⟩ | ⟨why, hd, hw⟩ := writeOpCmd_cases w s
    · simp only [regWrite, hw]
      exact .launch w i hd
    · simp only [regWrite, hw]
      exact .illegal w why hd
  | _ => exact .unchanged

/-- The port's turn, all it can do. -/
theorem hostTurn_move {s t : State} (h : hostTurn s = .next t) :
    t = s ∨ ∃ a rest u reply, s.env.hostQueue = a :: rest ∧ s.portFree = true ∧
      PortMove { s with env := { s.env with hostQueue := rest } } u ∧ t = u.answer reply := by
  obtain hn | ⟨a, rest, hq, hp, ha⟩ := hostTurn_cases s
  · rw [hn] at h
    cases h
    exact .inl rfl
  · rw [ha] at h
    obtain ⟨r, rfl | ⟨w, rfl⟩⟩ := serveAccess_next h
    · exact .inr ⟨_, rest, _, _, hq, hp, regRead_move r _, rfl⟩
    · exact .inr ⟨_, rest, _, _, hq, hp, regWrite_move r w _, rfl⟩

/-- Taking the turn off the schedule touches the schedule and the count of free turns alone. -/
theorem takeTurn_eq (s : State) :
    ∃ l n, takeTurn s = { s with env := { s.env with sched := l, turns := n } } := by
  unfold takeTurn
  split
  · exact ⟨_, _, rfl⟩
  · exact ⟨_, _, rfl⟩

/-- What an event can do, one constructor per agent's step; `still` is a turn its agent could not use. -/
inductive Moved (s : State) : Event → State → Prop
  | still (ev : Event) (hf : ev = .foreground → s.fg = .idle ∨ s.fgMayStep = false)
      (hc : ev = .trapContext → s.tc = none ∨ s.halted = true) (ht : ev ≠ .tick) (hr : ev ≠ .reset) : Moved s ev s
  | foreground (r : FgRecord) (t : State) (hf : s.fg = .busy r) (hm : s.fgMayStep = true)
      (hv : ForegroundMove s r t) : Moved s .foreground t
  | trapContext (r : TcRecord) (t : State) (hc : s.tc = some r) (hh : s.halted = false)
      (hv : TrapMove s r t) : Moved s .trapContext t
  | issue (a : Access) : Moved s (.issue a) (issueAccess a s)
  | host (a : Access) (rest : List Access) (u : State) (reply : HostReply) (hq : s.env.hostQueue = a :: rest)
      (hp : s.portFree = true)
      (hv : PortMove { s with env := { s.env with hostQueue := rest } } u) : Moved s .host (u.answer reply)
  | accept (ha : s.irqAcceptable = true) : Moved s .acceptIrq (takeTrap irqTag 0 0 s)
  | present (tag : Tag) (syn far : Word) (ht : tag ≠ irqTag) (hh : s.halted = false) :
      Moved s (.trap tag syn far) (takeTrap tag syn far s)
  | presentIrq (syn far : Word) (ha : s.irqAcceptable = true) :
      Moved s (.trap irqTag syn far) (takeTrap irqTag 0 0 s)
  | cpPop (w : Word) (rest : List Word) (hb : s.out = w :: rest) :
      Moved s .cpPop { s with out := rest, env := { s.env with cpTaken := some w } }
  | cpPush (w : Word) (hl : s.inb.length < s.par.mbxDepth) : Moved s (.cpPush w) { s with inb := s.inb ++ [w] }
  | tickMatch (ha : s.tmrArmed = true) (hc : s.counter + 1 = s.compare) :
      Moved s .tick { s with counter := s.counter + 1, matchFlag := true, tmrArmed := false }
  | tick (hn : ¬ (s.tmrArmed = true ∧ s.counter + 1 = s.compare)) :
      Moved s .tick { s with counter := s.counter + 1 }
  | setExt (w : Word) : Moved s (.setExt w) { s with ext := w }
  | reset : Moved s .reset (resetBlock s)

/-- An event that answers a next state, all it can have done. -/
theorem takeEvent_moved {ev : Event} {s t : State} (h : takeEvent ev s = .next t) : Moved s ev t := by
  cases ev with
  | foreground =>
    obtain ⟨rfl, hs⟩ | ⟨r, hf, hm, hv⟩ := foregroundTurn_move h
    · exact .still _ (fun _ => hs) (by simp) (by simp) (by simp)
    · exact .foreground r t hf hm hv
  | trapContext =>
    obtain ⟨rfl, hs⟩ | ⟨r, hc, hh, hv⟩ := trapTurn_move h
    · exact .still _ (by simp) (fun _ => hs) (by simp) (by simp)
    · exact .trapContext r t hc hh hv
  | issue a =>
    cases h
    exact .issue a
  | host =>
    obtain rfl | ⟨a, rest, u, reply, hq, hp, hv, rfl⟩ := hostTurn_move h
    · exact .still _ (by simp) (by simp) (by simp) (by simp)
    · exact .host a rest u reply hq hp hv
  | acceptIrq =>
    cases h
    obtain ⟨ha, he⟩ | ⟨-, he⟩ := acceptIrq_cases s <;> rw [he]
    · exact .accept ha
    · exact .still _ (by simp) (by simp) (by simp) (by simp)
  | trap tag syn far =>
    cases h
    obtain ⟨ht, hh, he⟩ | ⟨rfl, ha, he⟩ | he := presentTrap_cases tag syn far s <;> rw [he]
    · exact .present tag syn far ht hh
    · exact .presentIrq syn far ha
    · exact .still _ (by simp) (by simp) (by simp) (by simp)
  | cpPop =>
    cases h
    obtain ⟨w, rest, hb, he⟩ | ⟨-, he⟩ := cpPop_cases s <;> rw [he]
    · exact .cpPop w rest hb
    · exact .still _ (by simp) (by simp) (by simp) (by simp)
  | cpPush w =>
    cases h
    obtain ⟨hl, he⟩ | ⟨-, he⟩ := cpPush_cases w s <;> rw [he]
    · exact .cpPush w hl
    · exact .still _ (by simp) (by simp) (by simp) (by simp)
  | tick =>
    cases h
    obtain ⟨ha, hc, he⟩ | ⟨hn, he⟩ := tick_cases s <;> rw [he]
    · exact .tickMatch ha hc
    · exact .tick hn
  | setExt w =>
    cases h
    exact .setExt w
  | reset =>
    cases h
    exact .reset

/-- A step that answers a next state, all it can have done: the claims about every step start here. -/
theorem step_moved {s t : State} (h : step s = .next t) :
    ∃ l n, takeTurn s = { s with env := { s.env with sched := l, turns := n } } ∧
      Moved { s with env := { s.env with sched := l, turns := n } } (nextEvent s) t := by
  obtain ⟨l, n, he⟩ := takeTurn_eq s
  refine ⟨l, n, he, ?_⟩
  rw [← he]
  exact takeEvent_moved h

end Sys2Proof.Machine
end

