-- ==== Sys2Proof/Tests/Slice0.lean ====
section
/-!
SUPPORT. Tests with expected results from 95_test_vectors.md (named beside each by its vector), the smoke tests of the
assembler's checks, and for every statement with hypotheses a witness that meets them.
-/

namespace Sys2Proof.Tests

open Sys2Proof.Machine

/-! ### Helpers -/

/-- The instantiation the test vectors use, right after reset, with `EXT = 0`. -/
def base : State := State.resetWith Params.ref 0 Env.reset

/-- A state with the turns of these agents to come. -/
def withTurns (l : List Event) (s : State) : State := { s with env := { s.env with sched := l } }

/-- The record of an operation at one of its micro-steps. -/
def fgRecord (i : Instr) (a0 a1 : Word) (l : FgLabel) : FgRecord :=
  { instr := i, a0 := a0, a1 := a1, step := l, n := 0, t := 0 }

/-- An operation in flight. -/
def inFlight (i : Instr) (a0 a1 : Word) (l : FgLabel) (s : State) : State :=
  { s with fg := .busy (fgRecord i a0 a1 l) }

/-- The record of a trap at one of its micro-steps. -/
def tcRecord (tag : Tag) (l : TcLabel) : TcRecord :=
  { tag := tag, syn := 0xAAAA5555#32, far := 0x0000BEEF#32, step := l, t := 0 }

/-- A trap context at one of its micro-steps. -/
def inTrap (tag : Tag) (l : TcLabel) (s : State) : State := { s with tc := some (tcRecord tag l) }

/-- A FIFO of eight words. -/
def eight : List Word := List.replicate 8 0#32

/-- The state of vector V17: a timer match to serve. -/
def matched : State :=
  { base with
    armed := true, gie := true, enable := 0x2#32, matchFlag := true
    nextDeadline := 1005, compare := 1005, counter := 1005 }

/-- An answer that is a next state with a property. -/
def nextIs (p : State → Bool) : Answer → Bool
  | .next t => p t
  | .fault _ => false
  | .refused _ => false

/-! ### The assembler's checks refuse ill-formed statements (30_encoding.md R116) -/

theorem test_line_32_refused : (Stmt.icgEnable 32).wf = false ∧ (Stmt.icgEnable 31).wf = true := by decide

theorem test_channel_16_refused :
    (Stmt.mbxSend 16 0).wf = false ∧ (Stmt.mbxRecv 16 0).wf = false ∧ (Stmt.mbxCall 16 0 0).wf = false ∧
      (Stmt.mbxSend 15 0).wf = true := by decide

theorem test_tag_16_refused :
    (Stmt.trap 16 0 0).wf = false ∧ (Stmt.envTrap 16 0 0).wf = false ∧ (Stmt.trap 15 0 0).wf = true := by decide

theorem test_wide_operand_refused :
    (Stmt.mbxSend 1 (2 ^ 32)).wf = false ∧ (Stmt.mbxRecv 1 (2 ^ 32)).wf = false ∧
      (Stmt.trap 0 (2 ^ 32) 0).wf = false ∧ (Stmt.trap 0 0 (2 ^ 32)).wf = false ∧
      (Stmt.mbxCall 1 (2 ^ 32) 0).wf = false ∧ (Stmt.mbxCall 1 0 (2 ^ 32)).wf = false ∧
      (Stmt.mbxSend 1 (2 ^ 32 - 1)).wf = true := by decide

theorem test_wide_bus_operand_refused :
    (Stmt.regWrite 0 (2 ^ 32)).wf = false ∧ (Stmt.regWrite (2 ^ 32) 0).wf = false ∧
      (Stmt.regRead (2 ^ 32)).wf = false ∧ (Stmt.envCpPush (2 ^ 32)).wf = false ∧
      (Stmt.envExt (2 ^ 32)).wf = false ∧ (Stmt.envTrap 0 (2 ^ 32) 0).wf = false ∧
      (Stmt.envTrap 0 0 (2 ^ 32)).wf = false := by decide

theorem test_boot_assembles :
    assemble Params.ref .boot = some [.write 0x2C .word 0x10000000#32, .write 0x2C .word 0x20000000#32,
      .write 0x2C .word 0x30800000#32, .write 0x2C .word 0x40000000#32] := by decide

/-! ### Decoding: vectors E1 to E25 -/

theorem test_decode_vec_init : decode 0x10000000#32 = .legal .vecInit := by decide
theorem test_decode_tmr_init : decode 0x20000000#32 = .legal .tmrInit := by decide
theorem test_decode_icg_enable :
    decode 0x30000000#32 = .legal (.icgEnable 0) ∧ decode 0x30800000#32 = .legal (.icgEnable 1) ∧
      decode 0x31800000#32 = .legal (.icgEnable 3) ∧ decode 0x3F800000#32 = .legal (.icgEnable 31) := by decide
theorem test_decode_irq_unmask : decode 0x40000000#32 = .legal .irqUnmask := by decide
theorem test_decode_mbx_send :
    decode 0x50000000#32 = .legal (.mbxSend 0) ∧ decode 0x50800000#32 = .legal (.mbxSend 1) ∧
      decode 0x57800000#32 = .legal (.mbxSend 15) := by decide
theorem test_decode_mbx_recv :
    decode 0x60800000#32 = .legal (.mbxRecv 1) ∧ decode 0x67800000#32 = .legal (.mbxRecv 15) := by decide
theorem test_decode_trap :
    decode 0x70000000#32 = .legal (.trap 0) ∧ decode 0x76800000#32 = .legal (.trap 13) ∧
      decode 0x77800000#32 = .legal (.trap 15) := by decide
theorem test_decode_illegal :
    [0x00000000#32, 0x10800000#32, 0x10000001#32, 0x48000000#32, 0x58000000#32, 0x68800000#32, 0x78000000#32,
      0x70400000#32, 0x80000000#32, 0xFFFFFFFF#32].all (fun w => (decode w).instr? == none) = true := by decide

/-- The encoder gives the words written out above. -/
theorem test_encode :
    encode .vecInit = 0x10000000#32 ∧ encode .tmrInit = 0x20000000#32 ∧ encode (.icgEnable 31) = 0x3F800000#32 ∧
      encode .irqUnmask = 0x40000000#32 ∧ encode (.mbxSend 1) = 0x50800000#32 ∧
      encode (.mbxRecv 15) = 0x67800000#32 ∧ encode (.trap 13) = 0x76800000#32 := by decide

theorem test_table_word : decodeTableWord 32 0x60800000 = some (.mbxRecv 1) := by decide

/-- Vectors W2, W4: building a tagged word and taking it apart. -/
theorem test_tagged_word :
    taggedWord 8 0x1234567F#32 = 0x12345678#32 ∧ channelOf 0x12345678#32 = 8 ∧
      payloadOf 0x12345678#32 = 0x12345670#32 ∧ taggedWord 15 0xFFFFFFFF#32 = 0xFFFFFFFF#32 := by decide

/-! ### The operations -/

/-- Vector E26, last part. -/
theorem test_vec_init :
    nextIs (fun t => t.opStatus == 0x00000001#32 && t.fg == .idle)
      (foregroundSteps 1 (inFlight .vecInit 0 0 .s1 { base with err := 1 })) = true := by decide

/-- Vector T2: the deadline wraps. -/
theorem test_tmr_init_wraps :
    nextIs (fun t => t.compare == 0x000002E8#32 && t.nextDeadline == 0x000002E8#32 && t.tmrArmed && t.err == 0)
      (foregroundSteps 3 (inFlight .tmrInit 0 0 .s1 { base with counter := 0xFFFFFF00#32 })) = true := by decide

/-- Vector T3: the sum uses the value read at `S1`. -/
theorem test_tmr_init_keeps_first_read :
    nextIs (fun t => t.compare == 1005#32 && t.counter == 8#32)
      (runSteps 5 (withTurns [.foreground, .tick, .tick, .tick, .foreground]
        (inFlight .tmrInit 0 0 .s1 { base with counter := 5 }))) = true := by decide

/-- Vectors G3v, G4v. -/
theorem test_icg_enable_keeps_others :
    nextIs (fun t => t.enable == 0x8000000A#32 && t.err == 0)
      (foregroundSteps 1 (inFlight (.icgEnable 31) 0 0 .s1 { base with enable := 0x0000000A#32 })) = true := by decide

/-- Vector G6v: enabling a line that is high raises the request at once. -/
theorem test_icg_enable_raises :
    nextIs (fun t => t.pending == 0x10#32 && t.irqOut)
      (foregroundSteps 1 (inFlight (.icgEnable 4) 0 0 .s1 { base with ext := 0x00000010#32 })) = true := by decide

/-- Vector G9v. -/
theorem test_irq_unmask :
    nextIs (fun t => t.opStatus == 0x00000002#32)
      (foregroundSteps 1 (inFlight .irqUnmask 0 0 .s1 base)) = true := by decide

/-- Vectors M2, M4: a word in `IN` does not hold a send, the low address bits are dropped. -/
theorem test_mbx_send :
    nextIs (fun t => t.out == [0x40010001#32] && t.inb == [0x5#32] && t.err == 0)
      (foregroundSteps 2 (inFlight (.mbxSend 1) 0x4001000C#32 0 .s1 { base with inb := [0x5#32] })) = true := by decide

/-- Vector M3: the poll holds while `OUT` is full. -/
theorem test_mbx_send_holds :
    nextIs (fun t => t.out == eight && t.fg != .idle)
      (foregroundSteps 3 (inFlight (.mbxSend 1) 0x40010000#32 0 .s1 { base with out := eight })) = true := by decide

/-- Vector M5: a foreign word is lost, the reply is returned. -/
theorem test_mbx_recv :
    nextIs (fun t => t.result == 0x40010000#32 && t.err == 0 && t.inb == [])
      (foregroundSteps 4 (inFlight (.mbxRecv 1) 10 0 .s1
        { base with inb := [0x00000008#32, 0x40010001#32] })) = true := by decide

/-- Vector M11: the foreign word used up the only iteration. -/
theorem test_mbx_recv_bound :
    nextIs (fun t => t.result == 0xFFFFFFFF#32 && t.err == 2 && t.inb == [0x40010001#32])
      (foregroundSteps 3 (inFlight (.mbxRecv 1) 1 0 .s1
        { base with inb := [0x00000008#32, 0x40010001#32] })) = true := by decide

/-- Program 3: the record of a launched trap. -/
theorem test_trap_start :
    nextIs (fun t => t.tc == some { tag := 0, syn := 0x96000045#32, far := 0x00001234#32, step := .t0, t := 0 } &&
        t.fg == .idle && t.err == 0)
      (foregroundSteps 1 (inFlight (.trap 0) 0x96000045#32 0x00001234#32 .s1 base)) = true := by decide

/-! ### The trap context -/

/-- Vector V16. -/
theorem test_terminal_entry :
    nextIs (fun t => t.halted && t.rptInfo == 0x0000001F#32 && t.rptVal0 == 0xAAAA5555#32 &&
        t.rptVal1 == 0x0000BEEF#32 && t.rptCount == 1#32 && t.err == 0 &&
        t.diag == [{ kind := 1, tag := 15, v0 := 0xAAAA5555#32, v1 := 0x0000BEEF#32 }])
      (trapSteps 1 (inTrap 15 .t0 { base with armed := true })) = true := by decide

/-- Vector V14. -/
theorem test_unrecognized_zero :
    nextIs (fun t => t.rptInfo == 0x0000002D#32 && t.rptVal0 == 0#32 && t.rptCount == 1#32 && !t.halted &&
        !t.inIrq && t.tc == none)
      (trapSteps 4 (inTrap 13 .t0 { base with armed := true })) = true := by decide

/-- Vector V17. -/
theorem test_timer_fire :
    nextIs (fun t => t.nextDeadline == 2005#32 && t.compare == 2005#32 && t.tmrArmed && !t.matchFlag &&
        t.pending == 0#32 && t.diag == [])
      (runSteps 7 (withTurns (.acceptIrq :: List.replicate 6 .trapContext) matched)) = true := by decide

/-- Vector V21: the match is of the whole word. -/
theorem test_second_line_spoils_match :
    nextIs (fun t => t.nextDeadline == 1005#32 && t.matchFlag &&
        t.diag == [{ kind := 2, tag := 13, v0 := 0x0000000A#32, v1 := 0 }])
      (trapSteps 4 (inTrap 13 .t0 { matched with enable := 0xA#32, ext := 0x8#32 })) = true := by decide

/-- Vector V18: the silent halt, and the fault of the turn after it. -/
theorem test_unarmed_trap :
    nextIs (fun t => t.halted && t.err == 3 && t.diag == [] && t.rptCount == 0)
      (trapSteps 1 (inTrap 0 .t0 base)) = true ∧
    (match trapSteps 2 (inTrap 0 .t0 base) with | .fault .vecNotArmed => true | _ => false) = true := by decide

/-- Vector V24: a terminal trap inside the handler. -/
theorem test_trap_in_handler :
    nextIs (fun t => t.halted && t.compare == 1005#32 && t.diag == [{ kind := 1, tag := 8, v0 := 1, v1 := 2 }])
      (runSteps 2 (withTurns [.trap 8 1 2, .trapContext] (inTrap 13 .f2 { matched with inIrq := true }))) = true := by
  decide

/-- Vector G10v: with `GIE = 0` nothing is accepted. -/
theorem test_masked : nextIs (fun t => t.tc == none)
    (takeEvent .acceptIrq { matched with gie := false }) = true := by decide

/-! ### Timer, gate and port -/

/-- Vectors T4, T5. -/
theorem test_tick_matches :
    nextIs (fun t => t.matchFlag && !t.tmrArmed && t.counter == 1005#32)
      (takeEvent .tick { base with counter := 1004, compare := 1005, tmrArmed := true }) = true ∧
    nextIs (fun t => !t.matchFlag)
      (takeEvent .tick { base with counter := 1004, compare := 1005 }) = true := by decide

/-- Vector T14. -/
theorem test_counter_wraps :
    nextIs (fun t => t.counter == 0#32) (takeEvent .tick { base with counter := 0xFFFFFFFF#32 }) = true := by decide

/-- Vector G8v: the timer's own external line is not connected. -/
theorem test_timer_line_not_external :
    ({ base with enable := 0xFFFFFFFF#32, ext := 0xFFFFFFFF#32 } : State).pending = 0xFFFFFFFD#32 := by decide

/-- Vectors T11, T12. -/
theorem test_match_clear :
    (regWrite .tmrMatch 0xFFFFFFFE#32 matched).matchFlag = true ∧
      (regWrite .tmrMatch 1 matched).matchFlag = false := by decide

/-- Vectors M14, M15: a raw write on a full `OUT`, a raw read of `IN`. -/
theorem test_mailbox_data :
    (regWrite .mbxData 0x11#32 { base with out := eight }).out = eight ∧
      (regRead .mbxData { base with inb := [0xA#32, 0xB#32] }).1 = 0xA#32 := by decide

/-- Vectors A1, A3, A7: the window. -/
theorem test_window :
    admission Params.ref 0x38 .word = .admitted .evdRoute ∧ admission Params.ref 0x4C .word = .admitted .icgRoute0 ∧
      admission Params.ref 0x50 .word = .admitted .reserved ∧ admission Params.ref 0x04 .byte = .notAdmitted ∧
      admission Params.ref 0x06 .word = .notAdmitted ∧ admission Params.ref 0x80 .word = .outside := by decide

theorem test_constant_words : evdRouteWord = 0x00002000#32 ∧ timerBit Params.ref = 0x00000002#32 := by decide

/-- Vector E26: an illegal word. -/
theorem test_illegal_command :
    regWrite .opCmd 0x58000000#32 base = { base with lastCmd := 0x58000000#32, err := 1 } ∧
      (regWrite .opCmd 0x58000000#32 base).opStatus = 0x00000100#32 := by decide

/-- Vector A9: a launch through the port, and a read held until the operation is done. -/
theorem test_port_holds :
    nextIs (fun t => t.env.hostReply == .value 0x20000000#32 && t.env.hostQueue == [] && t.compare == 1005#32)
      (runSteps 8 (withTurns [.issue (.write 0x2C .word 0x20000000#32), .host, .issue (.read 0x2C .word), .host,
        .foreground, .foreground, .foreground, .host] { base with counter := 5 })) = true := by decide

/-- Vector M16: the co-processor waits while `IN` is full. -/
theorem test_push_waits :
    nextIs (fun t => t.inb == eight) (takeEvent (.cpPush 7) { base with inb := eight }) = true := by decide

/-- The examples of 30_encoding.md R113 and vector V14's line. -/
theorem test_report_text :
    Report.text { kind := 1, tag := 13, v0 := 0x0123ABCD#32, v1 := 0 } =
      some "IRQ_SAME_HANDLER SYN=0x0123ABCD ADDR=0x00000000" ∧
    tagOfLabel "SERROR_LOWER_A64" = some 7 := by decide

/-- `step` runs the word it is given as its next operation. -/
theorem test_with_fetch_word :
    nextIs (fun t => t.gie && t.lastCmd == 0x40000000#32) (step (State.reset.withFetchWord 32 0x40000000)) = true := by
  decide

/-! ### Witnesses: a state and operands that meet the hypotheses of each statement, clause by clause -/

/-- An operation in flight in `base` may step. -/
theorem base_inFlight (i : Instr) (a0 a1 : Word) (l : FgLabel) :
    InFlight i (inFlight i a0 a1 l base) (fgRecord i a0 a1 l) := ⟨rfl, rfl, rfl⟩

theorem base_inv : StateInv base := by
  constructor <;> first | decide | simp [base, State.resetWith, reportsMirrored]

/-- A step of the invariant's states: a tick from `base`. -/
theorem base_tick : ∃ t, step (withTurns [.tick] base) = .next t := ⟨_, rfl⟩

theorem base_turns_inv (l : List Event) : StateInv (withTurns l base) := by
  constructor <;> first
    | decide
    | simp [withTurns, base, State.resetWith, reportsMirrored, fatalCount, Params.wf, Params.ref]

theorem witness_MatchMaskSelectsOperation :
    ∃ row ∈ opcodeTable, ∃ row' ∈ opcodeTable,
      (0x77800000#32) &&& row.mask = row.pattern ∧ (0x77800000#32) &&& row'.mask = row'.pattern :=
  ⟨⟨"TRAP", 0x70000000#32, 0xF87FFFFF#32⟩, by decide, ⟨"TRAP", 0x70000000#32, 0xF87FFFFF#32⟩, by decide, by decide,
    by decide⟩

theorem witness_AssemblerWrites :
    (2 ^ 32 - 1 < 2 ^ 32) ∧ (31 < 32) ∧ (15 < 16) ∧ (32 ≤ 32) ∧ (16 ≤ 16) ∧ (2 ^ 32 ≤ 2 ^ 32) := by decide

theorem witness_PseudoInstructionsExpand :
    (∃ v t e u, assemble Params.ref .vecInit = some v ∧ assemble Params.ref .tmrInit = some t ∧
      assemble Params.ref .irqEnableTimer = some e ∧ assemble Params.ref .irqUnmask = some u) ∧
    (∃ x y, assemble Params.ref (.mbxSend 15 (2 ^ 32 - 1)) = some x ∧
      assemble Params.ref (.mbxRecv 15 (2 ^ 32 - 1)) = some y) ∧
    15 < 16 ∧ 2 ^ 32 - 1 < 2 ^ 32 :=
  ⟨⟨_, _, _, _, rfl, rfl, rfl, rfl⟩, ⟨_, _, rfl, rfl⟩, by decide, by decide⟩

theorem witness_VectorLabelsIdentifyTags : vectorLabel 13 = vectorLabel 13 := rfl

theorem witness_StepRunsDecodedOperation_turn :
    (withTurns [.foreground] (inFlight (.mbxSend 15) 0 0 .s1 base)).env.sched = [.foreground] ∧
      (withTurns [.foreground] (inFlight (.mbxSend 15) 0 0 .s1 base)).fg = .busy (fgRecord (.mbxSend 15) 0 0 .s1) :=
  ⟨rfl, rfl⟩

theorem witness_StepRunsDecodedOperation_launch :
    let s := withTurns [.host] { base with
      env := { base.env with hostQueue := [.write 0x2C .word 0x77800000#32] } }
    decode 0x77800000#32 = .legal (.trap 15) ∧ s.env.sched = [.host] ∧ s.portFree = true ∧
      s.par.blockBase % 0x80 = 0 ∧
      s.env.hostQueue = [.write (s.par.blockBase + 0x2C) .word 0x77800000#32] := by decide

theorem witness_CommandWriteLaunchesOrRefuses :
    (∃ i, decode 0x3F800000#32 = .legal i) ∧ (∃ why, decode 0xFFFFFFFF#32 = .illegal why) := ⟨⟨_, rfl⟩, ⟨_, rfl⟩⟩

theorem witness_IdleForegroundLaunches : base.fg = .idle ∧ base.tc = none ∧ base.halted = false := ⟨rfl, rfl, rfl⟩

theorem witness_VecInitArms :
    InFlight .vecInit (inFlight .vecInit 0 0 .s1 base) (fgRecord .vecInit 0 0 .s1) ∧
      (fgRecord .vecInit 0 0 .s1).step = .s1 := ⟨base_inFlight _ _ _ _, rfl⟩

theorem witness_IcgEnableSetsOneLine :
    InFlight (.icgEnable 31) (inFlight (.icgEnable 31) 0 0 .s1 base) (fgRecord (.icgEnable 31) 0 0 .s1) ∧
      (fgRecord (.icgEnable 31) 0 0 .s1).step = .s1 := ⟨base_inFlight _ _ _ _, rfl⟩

theorem witness_IrqUnmaskSetsGie :
    InFlight .irqUnmask (inFlight .irqUnmask 0 0 .s1 base) (fgRecord .irqUnmask 0 0 .s1) ∧
      (fgRecord .irqUnmask 0 0 .s1).step = .s1 := ⟨base_inFlight _ _ _ _, rfl⟩

theorem witness_MbxSendMicroSteps_poll :
    InFlight (.mbxSend 15) (inFlight (.mbxSend 15) 0xFFFFFFFF#32 0 .s1 base) (fgRecord (.mbxSend 15) 0xFFFFFFFF#32 0 .s1) ∧
      (fgRecord (.mbxSend 15) 0xFFFFFFFF#32 0 .s1).step = .s1 := ⟨base_inFlight _ _ _ _, rfl⟩

theorem witness_MbxSendMicroSteps_room :
    ∃ s, InFlight (.mbxSend 15) s (fgRecord (.mbxSend 15) 0 0 .s2) ∧ s.out.length + 1 = s.par.mbxDepth ∧
      s.out.length < s.par.mbxDepth :=
  ⟨inFlight (.mbxSend 15) 0 0 .s2 { base with out := List.replicate 7 0 }, ⟨rfl, rfl, rfl⟩, rfl, by decide⟩

theorem witness_MbxSendMicroSteps_full :
    ∃ s, InFlight (.mbxSend 0) s (fgRecord (.mbxSend 0) 0 0 .s2) ∧ s.par.mbxDepth ≤ s.out.length :=
  ⟨inFlight (.mbxSend 0) 0 0 .s2 { base with out := eight }, ⟨rfl, rfl, rfl⟩, by decide⟩

theorem witness_SendWaitsForPop :
    let r := fgRecord (.mbxSend 1) 0 0 .s1
    let s := withTurns [.foreground] (inFlight (.mbxSend 1) 0 0 .s1 { base with out := eight })
    s.fg = .busy r ∧ r.instr = .mbxSend 1 ∧ r.step = .s1 ∧ s.out.length = s.par.mbxDepth ∧
      nextEvent s ≠ .cpPop ∧ nextEvent s ≠ .reset ∧ ∃ t, step s = .next t :=
  ⟨rfl, rfl, rfl, rfl, by decide, by decide, ⟨_, rfl⟩⟩

theorem witness_MbxRecvMicroSteps_bound :
    let r := fgRecord (.mbxRecv 1) 0 0 .s1
    InFlight (.mbxRecv 1) (inFlight (.mbxRecv 1) 0 0 .s1 base) r ∧ r.step = .s1 ∧ r.n = r.a0 :=
  ⟨base_inFlight _ _ _ _, rfl, rfl⟩

theorem witness_MbxRecvMicroSteps_poll :
    let r := fgRecord (.mbxRecv 1) 1 0 .s1
    InFlight (.mbxRecv 1) (inFlight (.mbxRecv 1) 1 0 .s1 base) r ∧ r.step = .s1 ∧ r.n ≠ r.a0 :=
  ⟨base_inFlight _ _ _ _, rfl, by decide⟩

theorem witness_MbxRecvMicroSteps_take :
    let r := fgRecord (.mbxRecv 15) 1 0 .s2
    let s := inFlight (.mbxRecv 15) 1 0 .s2 { base with inb := [0xFFFFFFFF#32] }
    let u := inFlight (.mbxRecv 15) 1 0 .s2 { base with inb := [0xFFFFFFFE#32] }
    (InFlight (.mbxRecv 15) s r ∧ s.inb = [0xFFFFFFFF#32] ∧ (0xFFFFFFFF#32).extractLsb' 0 4 = (15 : Channel)) ∧
      (InFlight (.mbxRecv 15) u r ∧ u.inb = [0xFFFFFFFE#32] ∧ (0xFFFFFFFE#32).extractLsb' 0 4 ≠ (15 : Channel)) :=
  ⟨⟨⟨rfl, rfl, rfl⟩, rfl, by decide⟩, ⟨⟨rfl, rfl, rfl⟩, rfl, by decide⟩⟩

/-- Whatever the free word is, some channel meets each of the two cases of an empty read. -/
theorem witness_MbxRecvMicroSteps_empty :
    ∃ ch other : Channel, let w := Config.freeWord base.env.draws
      (w.extractLsb' 0 4 = ch ∧
        InFlight (.mbxRecv ch) (inFlight (.mbxRecv ch) 1 0 .s2 base) (fgRecord (.mbxRecv ch) 1 0 .s2)) ∧
      (w.extractLsb' 0 4 ≠ other ∧
        InFlight (.mbxRecv other) (inFlight (.mbxRecv other) 1 0 .s2 base) (fgRecord (.mbxRecv other) 1 0 .s2)) ∧
      base.inb = [] := by
  have hne : ∀ x : Channel, x ≠ x + 1 := by decide
  exact ⟨_, (Config.freeWord base.env.draws).extractLsb' 0 4 + 1, ⟨rfl, base_inFlight _ _ _ _⟩,
    ⟨hne _, base_inFlight _ _ _ _⟩, rfl⟩

theorem witness_RecvPayloadIsNeverSentinel :
    ∃ s t r, InFlight (.mbxRecv 15) s r ∧ exec (.mbxRecv 15) s = .next t ∧ t.fg = .idle :=
  ⟨inFlight (.mbxRecv 15) 1 0 .s2 { base with inb := [0xFFFFFFFF#32] }, _, fgRecord (.mbxRecv 15) 1 0 .s2,
    ⟨rfl, rfl, rfl⟩, rfl, rfl⟩

/-- Vector M11, with a tick between the micro-steps: exactly as many of them as the bound allows. -/
theorem witness_RecvCompletesWithinBound :
    let r := fgRecord (.mbxRecv 1) 1 0 .s1
    let s := withTurns [.foreground, .tick, .foreground, .foreground] (inFlight (.mbxRecv 1) 1 0 .s1
      { base with inb := [0x8#32] })
    s.fg = .busy r ∧ r.instr = .mbxRecv 1 ∧ hasLabel r.instr r.step = true ∧ resetWithin 4 s = false ∧
      (∃ t, runSteps 4 s = .next t) ∧ recvFuel r ≤ foregroundCount 4 s :=
  ⟨rfl, rfl, rfl, by decide, ⟨_, rfl⟩, by decide⟩

theorem witness_TmrInitMicroSteps :
    InFlight .tmrInit (inFlight .tmrInit 0 0 .s1 base) (fgRecord .tmrInit 0 0 .s1) ∧
    InFlight .tmrInit (inFlight .tmrInit 0 0 .s2 base) (fgRecord .tmrInit 0 0 .s2) ∧
    InFlight .tmrInit (inFlight .tmrInit 0 0 .s3 base) (fgRecord .tmrInit 0 0 .s3) :=
  ⟨base_inFlight _ _ _ _, base_inFlight _ _ _ _, base_inFlight _ _ _ _⟩

theorem witness_TrapStartsContext :
    InFlight (.trap 15) (inFlight (.trap 15) 1 2 .s1 base) (fgRecord (.trap 15) 1 2 .s1) ∧
      (fgRecord (.trap 15) 1 2 .s1).step = .s1 := ⟨base_inFlight _ _ _ _, rfl⟩

theorem witness_BlockedForegroundStandsStill :
    (inTrap 13 .t1 base).tc ≠ none ∧ ({ base with halted := true } : State).halted = true := by decide

theorem witness_OperationsAnswerAtTheirLabels :
    let s := inFlight .tmrInit 0 0 .s3 base
    let u := inFlight .vecInit 0 0 .s2 base
    (s.fgMayStep = true ∧ s.fg = .busy (fgRecord .tmrInit 0 0 .s3) ∧ hasLabel .tmrInit .s3 = true) ∧
      (u.fgMayStep = true ∧ u.fg = .busy (fgRecord .vecInit 0 0 .s2) ∧ hasLabel .vecInit .s2 = false) ∧
      Instr.tmrInit ≠ .vecInit := by decide

/-- Each operation answers a next state, so that each clause of the frame is met by the others. -/
theorem witness_OperationFrame : ∀ i ∈ [Instr.vecInit, .tmrInit, .icgEnable 31, .irqUnmask, .mbxSend 15,
    .mbxRecv 15, .trap 15], ∃ t, exec i base = .next t := by
  intro i hi
  simp only [List.mem_cons, List.not_mem_nil, or_false] at hi
  rcases hi with rfl | rfl | rfl | rfl | rfl | rfl | rfl <;> exact ⟨_, rfl⟩

theorem witness_PresentedTrapIsTaken :
    (15 : Tag) ≠ 13 ∧ base.halted = false ∧ ({ base with halted := true } : State).halted = true := by decide

theorem witness_InterruptAcceptance :
    (matched.pending ≠ 0 ∧ matched.gie = true ∧ matched.tc = none ∧ matched.halted = false) ∧
    ¬ (base.pending ≠ 0 ∧ base.gie = true ∧ base.tc = none ∧ base.halted = false) := by decide

theorem witness_UnarmedTrapHaltsSilently :
    let s := inTrap 13 .t0 base
    s.tc = some (tcRecord 13 .t0) ∧ (tcRecord 13 .t0).step = .t0 ∧ s.halted = false ∧ s.armed = false := by decide

theorem witness_TerminalEntryReportsAndHalts :
    let s := inTrap 15 .t0 { base with armed := true }
    s.tc = some (tcRecord 15 .t0) ∧ (tcRecord 15 .t0).step = .t0 ∧ s.halted = false ∧ s.armed = true ∧
      (tcRecord 15 .t0).tag ≠ 13 := by decide

theorem witness_InterruptDispatchSteps :
    let s := fun l => inTrap 13 l matched
    (s .t0).halted = false ∧ (s .t0).armed = true ∧ (tcRecord 13 .t0).tag = 13 ∧
      (s .t1).tc = some (tcRecord 13 .t1) ∧ (s .t2).tc = some (tcRecord 13 .t2) ∧
      (s .t3).tc = some (tcRecord 13 .t3) := by decide

theorem witness_FireReprogramsThenAcknowledges :
    let s := fun l => inTrap 13 l matched
    (s .f1).halted = false ∧ (s .f1).tc = some (tcRecord 13 .f1) ∧ (s .f2).tc = some (tcRecord 13 .f2) ∧
      (s .f3).tc = some (tcRecord 13 .f3) := by decide

theorem witness_InterruptServiceRunsHandlerOnce :
    let s := inTrap 13 .t0 matched
    let u := inTrap 13 .t0 { matched with enable := 0xA#32, ext := 0x8#32 }
    (s.armed = true ∧ s.halted = false ∧ s.pending = 1#32 <<< s.par.timerLine.toNat) ∧
      (u.armed = true ∧ u.halted = false ∧ u.pending ≠ 1#32 <<< u.par.timerLine.toNat) := by decide

theorem witness_TrapContextFrame :
    (∃ t, trapTurn (inTrap 13 .f2 matched) = .next t) ∧ (inTrap 13 .f2 matched).armed = true ∧
    (∃ t, trapTurn (inTrap 15 .t0 { matched with halted := true }) = .next t) ∧
    (inTrap 13 .f2 matched).tc = some (tcRecord 13 .f2) := ⟨⟨_, rfl⟩, rfl, ⟨_, rfl⟩, rfl⟩

theorem witness_MailboxIsIndependentOfInterrupts :
    let s := inFlight (.mbxRecv 1) 4 0 .s1 base
    let u := inFlight (.mbxRecv 1) 4 0 .s1 matched
    ((∃ t, trapTurn (inTrap 13 .f2 matched) = .next t) ∧ (inTrap 13 .f2 matched).armed = true) ∧
    (s ≠ u ∧ s.fgMayStep = true ∧ u.fgMayStep = true ∧ s.fg ≠ .idle ∧ s.mailboxPart = u.mailboxPart ∧
      (∃ t, exec (.mbxRecv 1) s = .next t) ∧ ∃ t, exec (.mbxRecv 1) u = .next t) :=
  ⟨⟨⟨_, rfl⟩, rfl⟩, by decide, rfl, rfl, by decide, rfl, ⟨_, rfl⟩, ⟨_, rfl⟩⟩

/-- A fair run: the trap context returns, the operation in flight takes its last micro-step, then the tick source
ticks for ever. -/
theorem witness_FairTrapContextEnds : ∃ ε ρ, FairRun ε ρ ∧ (ρ 0).tc ≠ none ∧ (ρ 0).fg ≠ .idle := by
  refine ⟨fun k => match k with
    | 0 => .trapContext
    | 1 => .foreground
    | _ + 2 => .tick, fun k => match k with
    | 0 => inFlight .irqUnmask 0 0 .s1 (inTrap 13 .t3 base)
    | 1 => inFlight .irqUnmask 0 0 .s1 base
    | k + 2 => { base with gie := true, counter := BitVec.ofNat 32 k }, ?_, by decide, by decide⟩
  refine ⟨?_, fun h => ?_, fun h => ?_, ?_, ?_⟩
  · intro k
    match k with
    | 0 => rfl
    | 1 => rfl
    | k + 2 => simp [takeEvent, tick, base, State.resetWith, BitVec.ofNat_add]
  · obtain ⟨m, hm, h⟩ := h 2
    match m, hm with
    | m + 2, _ => simp [State.fgCanStep, base, State.resetWith] at h
  · obtain ⟨m, hm, h⟩ := h 2
    match m, hm with
    | m + 2, _ => simp [State.tcCanStep, base, State.resetWith] at h
  · exact fun k => ⟨k + 2, by omega, .inr (by simp [State.irqAcceptable, State.irqOut, State.pending, base,
      State.resetWith])⟩
  · exact fun k => ⟨k + 2, by omega, rfl⟩

theorem witness_TickMatchesOnEquality :
    let s : State := { base with counter := 0xFFFFFFFF#32, tmrArmed := true, matchFlag := true }
    (s.tmrArmed = true ∧ s.counter + 1 = s.compare) ∧ ¬ (base.tmrArmed = true ∧ base.counter + 1 = base.compare) ∧
      s.matchFlag = true ∧ ∃ t, takeEvent .tick s = .next t ∧ t.matchFlag = true :=
  ⟨by decide, by decide, rfl, ⟨_, rfl, rfl⟩⟩

theorem witness_MatchAtDistance :
    let s : State := { base with counter := 1004, compare := 1005, tmrArmed := true }
    let u : State := { base with counter := 1005, compare := 1005, tmrArmed := true }
    (s.tmrArmed = true ∧ 1 = (if s.counter = s.compare then 2 ^ 32 else (s.compare - s.counter).toNat) ∧ 0 < 1) ∧
      (u.tmrArmed = true ∧ 2 ^ 32 = (if u.counter = u.compare then 2 ^ 32 else (u.compare - u.counter).toNat)) := by
  decide

theorem witness_CounterIsFreeRunning :
    (∃ t, step (withTurns [.tick] base) = .next t) ∧ nextEvent (withTurns [.tick] base) ≠ .reset :=
  ⟨base_tick, by decide⟩

/-- A fire with a tick in its middle. -/
theorem witness_DeadlineNeverDrifts :
    let s := withTurns [.trapContext, .trapContext, .tick, .trapContext] (inTrap 13 .f1 matched)
    (∃ t, runSteps 4 s = .next t) ∧ rebased 4 s = false ∧ fireCount 4 s = 1 ∧
      s.nextDeadline.toNat + fireCount 4 s * s.par.interval.toNat < 2 ^ 32 :=
  ⟨⟨_, rfl⟩, by decide, by decide, by decide⟩

theorem witness_LateMatchIsWiped :
    let s := inTrap 13 .f3 { matched with counter := 2004, compare := 2005, tmrArmed := true }
    s.tc = some (tcRecord 13 .f3) ∧ (tcRecord 13 .f3).step = .f3 ∧ s.halted = false ∧ s.tmrArmed = true ∧
      s.counter + 1 = s.compare := by decide

theorem witness_StatusWordBits : StateInv base ∧ base.portFree = true := ⟨base_inv, rfl⟩

theorem witness_WindowMap :
    (0x4C = Params.ref.blockBase + 4 * 19 ∧ Params.ref.blockBase % 0x80 = 0) ∧
    (Params.ref.blockBase ≤ 0x7F ∧ 0x7F < Params.ref.blockBase + 0x80 ∧ 0x7F % 4 ≠ 0) ∧
    (Params.ref.blockBase + 0x80 ≤ 0x80) ∧ (0x7F < ({ Params.ref with blockBase := 0x80 } : Params).blockBase) := by
  decide

theorem witness_MailboxDataPort :
    ({ base with inb := [0xA#32] } : State).inb = [0xA#32] ∧ base.inb = [] ∧
      ({ base with out := List.replicate 7 0 } : State).out.length < base.par.mbxDepth ∧
      base.par.mbxDepth ≤ ({ base with out := eight } : State).out.length := by decide

theorem witness_RegisterWrites :
    (0x00000001#32).getLsbD 0 = true ∧ (0xFFFFFFFE#32).getLsbD 0 = false ∧
      Reg.rptCount ∈ [Reg.mbxStatus, .icgPending, .tmrCounter, .tmrDeadline, .tmrInterval, .opResult, .opStatus,
        .evdRoute, .rptInfo, .rptVal0, .rptVal1, .rptCount, .icgRoute0, .reserved] := by decide

theorem witness_PortHoldsThenServes :
    let q := fun a : Access => { base with env := { base.env with hostQueue := [a] } }
    ((inTrap 13 .t1 base).fg ≠ .idle ∨ (inTrap 13 .t1 base).tc ≠ none ∨ (inTrap 13 .t1 base).halted = true) ∧
    ((q (.read 0x7C .word)).env.hostQueue = [.read 0x7C .word] ∧ (q (.read 0x7C .word)).fg = .idle ∧
      (q (.read 0x7C .word)).tc = none ∧ (q (.read 0x7C .word)).halted = false ∧
      admission base.par 0x7C .word = .admitted .reserved) ∧
    ((q (.write 0x24 .word 7)).env.hostQueue = [.write 0x24 .word 7] ∧
      admission base.par 0x24 .word = .admitted .opArg0) ∧
    ((q (.read 0x7D .byte)).env.hostQueue = [.read 0x7D .byte] ∧ admission base.par 0x7D .byte = .notAdmitted) ∧
    ((q (.read 0x80 .word)).env.hostQueue = [.read 0x80 .word] ∧ admission base.par 0x80 .word = .outside) := by decide

/-- An issue behind a held access, and the port's turn that takes the older of two. -/
theorem witness_PortHoldsThenServes_order :
    let s := withTurns [.issue (.read 0x7C .word)] { base with
      env := { base.env with hostQueue := [.write 0x24 .word 7] } }
    let u := withTurns [.host] { base with
      env := { base.env with hostQueue := [.write 0x24 .word 7, .read 0x7C .word] } }
    nextIs (fun t => t.env.hostQueue == [.write 0x24 .word 7, .read 0x7C .word]) (step s) = true ∧
      (∀ a, nextEvent u ≠ .issue a) ∧
      nextIs (fun t => t.env.hostQueue == [.read 0x7C .word] && t.arg0 == 7#32) (step u) = true :=
  ⟨by decide, by simp [nextEvent, withTurns], by decide⟩

theorem witness_CoprocessorPort :
    ({ base with out := [0xA#32] } : State).out = [0xA#32] ∧ base.out = [] ∧ base.inb.length < base.par.mbxDepth ∧
      base.par.mbxDepth ≤ ({ base with inb := eight } : State).inb.length := by decide

theorem witness_ExternalLinesAreFollowed : 31 < 32 ∧ 31 ≠ base.par.timerLine.toNat := by decide

theorem witness_ResetFromAnyState : 1 ≤ base.par.mbxDepth := by decide

theorem witness_StepKeepsInvariant :
    StateInv (withTurns [.tick] base) ∧ ∃ t, step (withTurns [.tick] base) = .next t :=
  ⟨base_turns_inv _, base_tick⟩

/-- The state a trap before `VEC.INIT` leads to. -/
def silent : State := inTrap 0 .t0 { base with halted := true, err := 3 }

theorem silent_inv : StateInv (withTurns [.trapContext] silent) := by
  constructor <;> first
    | decide
    | simp [silent, inTrap, withTurns, tcRecord, base, State.resetWith, reportsMirrored]

theorem witness_StopsOnlyAsRuled :
    (StateInv (withTurns [.trapContext] silent) ∧ step (withTurns [.trapContext] silent) = .fault .vecNotArmed) ∧
    (∃ s, StateInv s ∧ step s = .refused .accessNotAdmitted) ∧
    (∃ s, StateInv s ∧ step s = .refused .outsideWindow) ∧
    admission base.par 0x7D .word = .notAdmitted ∧ admission base.par 0x80 .word = .outside := by
  refine ⟨⟨silent_inv, rfl⟩, ⟨{ base with env := { base.env with
      sched := [.host], hostQueue := [.read 0x7D .word] } }, ?_, rfl⟩, ⟨{ base with env := { base.env with
      sched := [.host], hostQueue := [.read 0x80 .word] } }, ?_, rfl⟩, by decide, by decide⟩
  all_goals constructor <;> first | decide | simp [base, State.resetWith, reportsMirrored]

theorem witness_HaltIsForGood :
    let s := withTurns [.tick] silent
    s.halted = true ∧ (∃ t, step s = .next t) ∧ nextEvent s ≠ .reset := ⟨rfl, ⟨_, rfl⟩, by decide⟩

theorem witness_ModeBitsAreSticky :
    let s := withTurns [.foreground] (inFlight .vecInit 0 0 .s1 base)
    let u := withTurns [.foreground] (inFlight .irqUnmask 0 0 .s1 base)
    let v := withTurns [.tick] matched
    (s.armed = false ∧ nextEvent s ≠ .reset ∧ ∃ t, step s = .next t ∧ t.armed = true) ∧
      (u.gie = false ∧ nextEvent u ≠ .reset ∧ ∃ t, step u = .next t ∧ t.gie = true) ∧
      (v.armed = true ∧ v.gie = true ∧ nextEvent v ≠ .reset ∧ ∃ t, step v = .next t) :=
  ⟨⟨rfl, by decide, ⟨_, rfl, rfl⟩⟩, ⟨rfl, by decide, ⟨_, rfl, rfl⟩⟩, ⟨rfl, rfl, by decide, ⟨_, rfl⟩⟩⟩

theorem witness_DiagIsAppendOnly :
    let s := withTurns [.trapContext] (inTrap 13 .t2 matched)
    (∃ t, step s = .next t) ∧ nextEvent s ≠ .reset := ⟨⟨_, rfl⟩, by decide⟩

theorem witness_FifosKeepOrder :
    ∃ t, step (withTurns [.cpPop] { base with out := eight }) = .next t := ⟨_, rfl⟩

theorem witness_DeadlineBelongsToTimer :
    let s := withTurns [.foreground] (inFlight .tmrInit 0 0 .s3 base)
    let u := withTurns [.trapContext] (inTrap 13 .f1 matched)
    let v := withTurns [.trapContext] (inTrap 13 .f2 matched)
    ((∃ t, step (withTurns [.reset] matched) = .next t) ∧ nextEvent (withTurns [.reset] matched) = .reset) ∧
    ((∃ t, step s = .next t) ∧ nextEvent s = .foreground ∧ s.fgMayStep = true ∧
      s.fg = .busy (fgRecord .tmrInit 0 0 .s3)) ∧
    ((∃ t, step u = .next t) ∧ isFire u = true) ∧
    ((∃ t, step v = .next t) ∧ isRebase v = false ∧ isFire v = false) :=
  ⟨⟨⟨_, rfl⟩, rfl⟩, ⟨⟨_, rfl⟩, rfl, rfl, rfl⟩, ⟨⟨_, rfl⟩, by decide⟩, ⟨⟨_, rfl⟩, by decide, by decide⟩⟩

theorem witness_ParametersAreConstant : ∃ t, step (withTurns [.reset] base) = .next t := ⟨_, rfl⟩

end Sys2Proof.Tests
end

section
/-!
PROOFS. The parameters of the instance (00_scope.md R5, 10_state.md R40): no agent's move writes them, hence no step
does. The claim about every step goes through the case analysis `step_moved`.
-/

namespace Sys2Proof.Machine

/-! ### The terminal entry and the reset -/

@[simp] theorem fatalEntry_par (tag : Tag) (syn far : Word) (s : State) : (fatalEntry tag syn far s).par = s.par := rfl

/-- A reset starts again from the same instance (70_reset_and_hazards.md R260). -/
@[simp] theorem resetBlock_par (s : State) : (resetBlock s).par = s.par := rfl

/-! ### The moves of the foreground, of the trap context and of the register port -/

theorem ForegroundMove.par_eq {s t : State} {r : FgRecord} (h : ForegroundMove s r t) : t.par = s.par := by
  cases h <;> rfl

theorem TrapMove.par_eq {s t : State} {r : TcRecord} (h : TrapMove s r t) : t.par = s.par := by
  cases h with
  | fatal => exact fatalEntry_par _ _ _ s
  | report => exact emit_par s (pendingReport r.t)
  | _ => rfl

theorem PortMove.par_eq {s t : State} (h : PortMove s t) : t.par = s.par := by
  cases h <;> rfl

/-- No event changes the parameters, whichever agent it gives the turn to. -/
theorem Moved.par_eq {s t : State} {ev : Event} (h : Moved s ev t) : t.par = s.par := by
  cases h with
  | foreground r t hf hm hv => exact hv.par_eq
  | trapContext r t hc hh hv => exact hv.par_eq
  | host a rest u reply hq hp hv =>
    calc (u.answer reply).par = u.par := answer_par u reply
      _ = s.par := hv.par_eq
  | issue a => exact issueAccess_par s a
  | accept => exact takeTrap_par s irqTag 0 0
  | present tag syn far => exact takeTrap_par s tag syn far
  | presentIrq => exact takeTrap_par s irqTag 0 0
  | reset => exact resetBlock_par s
  | _ => rfl

/-- Settles O60: taking the turn leaves the parameters, and so does every move a step can make. -/
theorem parametersAreConstant : Obligations.ParametersAreConstant := by
  intro s t h
  obtain ⟨l, n, -, hv⟩ := step_moved h
  exact hv.par_eq

end Sys2Proof.Machine
end

section
/-!
PROOFS. The words the block derives from its state (10_state.md R27, R30 to R32), bit by bit.
-/

namespace Sys2Proof.Machine

/-- Inside a word a flag shows at its own bit and nowhere else. -/
theorem flagBit_getLsbD (b : Bool) {k j : Nat} (hj : j < 32) :
    (flagBit b k).getLsbD j = (b && decide (j = k)) := by
  cases b with
  | false => simp [flagBit]
  | true =>
    rw [flagBit, if_pos rfl, BitVec.getLsbD_shiftLeft, BitVec.getLsbD_one, Bool.eq_iff_iff]
    simp
    omega

/-- A line's mask is 1 at the line's own bit alone (30_encoding.md R115). -/
theorem lineMask_getLsbD (line : Line) {j : Nat} (hj : j < 32) :
    (lineMask line).getLsbD j = decide (j = line.toNat) := by
  calc (lineMask line).getLsbD j = (flagBit true line.toNat).getLsbD j := rfl
    _ = decide (j = line.toNat) := by rw [flagBit_getLsbD _ hj, Bool.true_and]

theorem mbxStatus_getLsbD (s : State) {k : Nat} (hk : k < 32) :
    s.mbxStatus.getLsbD k =
      if k = 31 then decide (s.out.length = s.par.mbxDepth)
      else if k = 0 then decide (0 < s.inb.length) else false := by
  rw [State.mbxStatus, BitVec.getLsbD_or, flagBit_getLsbD _ hk, flagBit_getLsbD _ hk]
  by_cases h31 : k = 31
  · subst h31
    simp [State.outFull, beq_eq_decide]
  · by_cases h0 : k = 0
    · subst h0
      simp [State.inAvail]
    · simp [h31, h0]

/-- `OUT_FULL` is bit 31 of the status word (10_state.md R27). -/
theorem mbxStatus_outFull (s : State) : s.mbxStatus.getLsbD 31 = decide (s.out.length = s.par.mbxDepth) :=
  mbxStatus_getLsbD s (by decide)

/-- Settles O41: the word is zero exactly when both of its bits are. -/
theorem mailboxStatusBits : Obligations.MailboxStatusBits := by
  intro s
  refine ⟨fun k hk => mbxStatus_getLsbD s hk, fun h => ?_, fun ⟨hin, hout⟩ => ?_⟩
  · have h31 := mbxStatus_outFull s
    have h0 := mbxStatus_getLsbD s (k := 0) (by decide)
    rw [h] at h31 h0
    exact ⟨by simpa using h0.symm, by simpa using h31.symm⟩
  · apply BitVec.eq_of_getLsbD_eq
    intro k hk
    rw [mbxStatus_getLsbD s hk]
    simp [hin, hout]

/-- The timer's part of `RAW` is the match flag at the timer's line (10_state.md R30). -/
theorem raw_eq (s : State) :
    s.raw = (s.ext &&& ~~~(timerBit s.par)) ||| flagBit s.matchFlag s.par.timerLine.toNat := rfl

theorem raw_getLsbD (s : State) {k : Nat} (hk : k < 32) :
    s.raw.getLsbD k = if k = s.par.timerLine.toNat then s.matchFlag else s.ext.getLsbD k := by
  rw [raw_eq, BitVec.getLsbD_or, BitVec.getLsbD_and, BitVec.getLsbD_not, timerBit, lineMask_getLsbD _ hk,
    flagBit_getLsbD _ hk]
  by_cases ht : k = s.par.timerLine.toNat
  · rw [if_pos ht]
    simp [ht]
  · rw [if_neg ht]
    simp [ht, hk]

/-- Settles O42: `PENDING` is a bitwise and, and the request line compares it with zero. -/
theorem pendingBits : Obligations.PendingBits := by
  intro s
  refine ⟨fun k hk => raw_getLsbD s hk, fun k _ => BitVec.getLsbD_and, ?_⟩
  simp [State.irqOut]

end Sys2Proof.Machine
end

section
/-!
PROOFS. What `exec` answers, for every operation at once (10_state.md R23): blocked, at a label the operation has, at a
stray label, and with another operation in flight.
-/

namespace Sys2Proof.Machine

/-- The micro-step of each operation in a given record. -/
def microBody : Instr → State → FgRecord → Answer
  | .vecInit => vecInitStep
  | .tmrInit => initStep
  | .icgEnable line => enableStep line
  | .irqUnmask => unmaskStep
  | .mbxSend ch => sendStep ch
  | .mbxRecv ch => recvStep ch
  | .trap tag => trapStart tag

/-- Every arm of `exec` is the shared micro-step around its operation's own. -/
theorem exec_eq_microStep (i : Instr) (s : State) : exec i s = microStep i (microBody i s) s := by
  cases i <;> rfl

theorem microStep_notInFlight (i : Instr) (body : FgRecord → Answer) (s : State) (r : FgRecord)
    (hm : s.fgMayStep = true) (hf : s.fg = .busy r) (hi : r.instr ≠ i) :
    microStep i body s = .fault .notInFlight := by
  simp [microStep, hm, hf, hi]

theorem fgMayStep_iff (s : State) : s.fgMayStep = true ↔ s.tc = none ∧ s.halted = false := by
  simp [State.fgMayStep]

theorem fgMayStep_eq_false_iff (s : State) : s.fgMayStep = false ↔ s.tc ≠ none ∨ s.halted = true := by
  rw [← Bool.not_eq_true, fgMayStep_iff, not_and_or, Bool.not_eq_false]

/-- At a label of its pseudocode an operation's micro-step answers a next state. -/
theorem microBody_next {i : Instr} {r : FgRecord} (s : State) (h : hasLabel i r.step = true) :
    ∃ t, microBody i s r = .next t := by
  cases hs : r.step with
  | s1 =>
    cases i <;>
      simp [microBody, vecInitStep, initStep, enableStep, unmaskStep, sendStep, recvStep, trapStart, hs]
  | s2 => cases i <;> simp_all [hasLabel, microBody, initStep, sendStep, recvStep]
  | s3 => cases i <;> simp_all [hasLabel, microBody, initStep]

/-- At any other label it is the model's fault (log entry 12). -/
theorem microBody_stray {i : Instr} {r : FgRecord} (s : State) (h : hasLabel i r.step = false) :
    microBody i s r = .fault .strayLabel := by
  cases hs : r.step with
  | s1 => cases i <;> simp [hasLabel, hs] at h
  | s2 => cases i <;> simp_all [hasLabel, microBody, vecInitStep, enableStep, unmaskStep, trapStart]
  | s3 =>
    cases i <;>
      simp_all [hasLabel, microBody, vecInitStep, enableStep, unmaskStep, sendStep, recvStep, trapStart]

/-- Settles O23: a blocked micro-step is no step, whatever the operation. -/
theorem blockedForegroundStandsStill : Obligations.BlockedForegroundStandsStill := by
  intro i s h
  rw [exec_eq_microStep]
  exact microStep_blocked i _ s ((fgMayStep_eq_false_iff s).2 h)

/-- Settles O24: with the operation in flight `exec` is its micro-step, which asks for the label alone. -/
theorem operationsAnswerAtTheirLabels : Obligations.OperationsAnswerAtTheirLabels := by
  intro i s r hm hf
  rw [exec_eq_microStep]
  refine ⟨fun hi hl => ?_, fun hi hl => ?_, fun hi => microStep_notInFlight i _ s r hm hf hi⟩
  · rw [microStep_busy i _ s r hm hf hi]
    exact microBody_next s hl
  · rw [microStep_busy i _ s r hm hf hi]
    exact microBody_stray s hl

end Sys2Proof.Machine
end

section
/-!
PROOFS. The invariant of 10_state.md R46: the reset state meets it, and every move of every agent keeps it. The moves
share few effects on what the invariant reads, so each effect has one lemma, and each move is a composition of them.
-/

namespace Sys2Proof.Machine

/-! ### The reset state -/

/-- Whatever the free constants are, the parameters made of them are in the ranges of 00_scope.md R5. -/
theorem configParams_wf : Config.params.wf = true := by
  have hinterval : BitVec.ofNat 32 (Config.intervalLessOne % (2 ^ 32 - 1) + 1) ≠ 0 := by
    intro h
    have hn := congrArg BitVec.toNat h
    rw [BitVec.toNat_ofNat, Nat.mod_eq_of_lt (by omega)] at hn
    exact absurd hn (Nat.succ_ne_zero _)
  simpa [Params.wf, Config.params] using hinterval

/-- A block with the values of 10_state.md R47 meets the invariant, around any parameters in range. -/
theorem resetWith_inv {p : Params} (ext : Word) (env : Env) (hp : p.wf = true) :
    StateInv (State.resetWith p ext env) where
  params := hp
  outBound := Nat.zero_le _
  inBound := Nat.zero_le _
  label := by simp [State.resetWith]
  pollBound := by simp [State.resetWith]
  sendRoom := by simp [State.resetWith]
  irqContext := by simp [State.resetWith]
  pastEntry := by simp [State.resetWith]
  haltedFrozen := by simp [State.resetWith]
  errRange := by simp [State.resetWith]
  errUnarmed := by simp [State.resetWith]
  reportCount := rfl
  mirrored := ⟨rfl, rfl, rfl⟩
  kinds := by simp [State.resetWith]
  fatalOnce := rfl

/-- Settles O52: the reset state is made of R47's values around parameters in range. -/
theorem resetMeetsInvariant : Obligations.ResetMeetsInvariant := resetWith_inv _ _ configParams_wf

/-! ### The report stream -/

theorem reportsMirrored_emit (s : State) (rec : Report) : reportsMirrored (s.emit rec) := by
  simp [reportsMirrored]

theorem emit_reportCount {s : State} (rec : Report) (h : s.rptCount = BitVec.ofNat 32 s.diag.length) :
    (s.emit rec).rptCount = BitVec.ofNat 32 (s.emit rec).diag.length := by
  simp [h, BitVec.ofNat_add]

theorem emit_kinds {s : State} {rec : Report} (h : ∀ x ∈ s.diag, emittable x) (hr : emittable rec) :
    ∀ x ∈ (s.emit rec).diag, emittable x := by
  intro x hx
  rw [emit_diag, List.mem_append, List.mem_singleton] at hx
  obtain hx | rfl := hx
  · exact h x hx
  · exact hr

theorem fatalCount_append (d : List Report) (rec : Report) :
    fatalCount (d ++ [rec]) = fatalCount d + if rec.kind = 1 then 1 else 0 := by
  simp [fatalCount, List.countP_append, List.countP_singleton]

theorem fatalReport_emittable (tag : Tag) (syn far : Word) : emittable (fatalReport tag syn far) := .inl rfl

theorem pendingReport_emittable (w : Word) : emittable (pendingReport w) := .inr ⟨rfl, rfl, rfl⟩

/-! ### Effects on the block that keep the invariant

Each lemma proves the clauses that read a changed field; `{ h with .. }` takes the others over as they are. -/

namespace StateInv

variable {s : State}

/-- A running block has emitted no fatal record. -/
theorem fatalCount_of_running (h : StateInv s) (hh : s.halted = false) : fatalCount s.diag = 0 := by
  simpa [hh] using h.fatalOnce

/-- Code 3 stands in a halted block only. -/
theorem err_ne_three_of_running (h : StateInv s) (hh : s.halted = false) : s.err ≠ 3 := by
  intro he
  obtain ⟨hhalt, -⟩ := h.errUnarmed.1 he
  simp [hh] at hhalt

/-- The completion of an operation, with a code that is not the unarmed halt's. -/
theorem finish (h : StateInv s) (hh : s.halted = false) {c : BitVec 4} (hc : c.toNat < 3) :
    StateInv (s.finish c) :=
  { h with
    label := by simp
    pollBound := by simp
    sendRoom := by simp
    errRange := hc.le
    errUnarmed := by
      have hne : c ≠ 3 := by rintro rfl; exact absurd hc (by decide)
      simpa [hh] using hne }

/-- The refusal of an illegal command word (30_encoding.md R108). -/
theorem illegal (h : StateInv s) (hh : s.halted = false) (w : Word) :
    StateInv { s with lastCmd := w, err := 1 } :=
  { h with
    errRange := (by decide : (1 : BitVec 4).toNat ≤ 3)
    errUnarmed := by simp [hh] }

/-- A record of an operation at one of its micro-steps, within the bound of a receive and with room for a send. -/
theorem busy (h : StateInv s) (r : FgRecord) (hl : hasLabel r.instr r.step = true)
    (hp : ∀ ch, r.instr = .mbxRecv ch → r.n.toNat ≤ r.a0.toNat)
    (hs : ∀ ch, r.instr = .mbxSend ch → r.step = .s2 → s.out.length < s.par.mbxDepth) :
    StateInv { s with fg := .busy r } :=
  { h with
    label := by
      rintro _ ⟨⟩
      exact hl
    pollBound := by
      rintro _ ch ⟨⟩
      exact hp ch
    sendRoom := by
      rintro _ ch ⟨⟩
      exact hs ch }

/-- The operation in flight moves on to another of its micro-steps with a new temporary. -/
theorem relabel (h : StateInv s) {r : FgRecord} (hf : s.fg = .busy r) (t : Word) (l : FgLabel)
    (hl : hasLabel r.instr l = true)
    (hs : ∀ ch, r.instr = .mbxSend ch → l = .s2 → s.out.length < s.par.mbxDepth) :
    StateInv { s with fg := .busy { r with t := t, step := l } } :=
  h.busy _ hl (fun ch hi => h.pollBound r ch hf hi) hs

/-- The launch of an operation (20_memory.md R86): every operation has `S1`, and the poll counter starts at 0. -/
theorem launch (h : StateInv s) (i : Instr) : StateInv { s with fg := .busy (launchRecord i s) } :=
  h.busy _ (by cases i <;> rfl) (fun _ _ => Nat.zero_le _) (fun _ _ hs => nomatch hs)

/-- A word at the tail of `OUT`, where there is room and no send has found room before. -/
theorem pushOut (h : StateInv s) (hf : s.fg = .idle) (w : Word) (hl : s.out.length < s.par.mbxDepth) :
    StateInv { s with out := s.out ++ [w] } :=
  { h with
    outBound := by simpa using hl
    sendRoom := by simp [hf] }

theorem popOut (h : StateInv s) {w : Word} {rest : List Word} (hb : s.out = w :: rest) :
    StateInv { s with out := rest } := by
  have hlen : rest.length ≤ s.out.length := by simp [hb]
  exact { h with
    outBound := hlen.trans h.outBound
    sendRoom := fun r ch hf hi hs => hlen.trans_lt (h.sendRoom r ch hf hi hs) }

theorem pushIn (h : StateInv s) (w : Word) (hl : s.inb.length < s.par.mbxDepth) :
    StateInv { s with inb := s.inb ++ [w] } :=
  { h with inBound := by simpa using hl }

theorem popIn (h : StateInv s) {w : Word} {rest : List Word} (hb : s.inb = w :: rest) :
    StateInv { s with inb := rest } := by
  have hlen : rest.length ≤ s.inb.length := by simp [hb]
  exact { h with inBound := hlen.trans h.inBound }

/-- `ARMED` is set in a running block: no fatal record is due and `ERR` is not 3. -/
theorem arm (h : StateInv s) (hh : s.halted = false) : StateInv { s with armed := true } :=
  { h with
    pastEntry := fun r hc hs =>
      have ⟨hirq, htag, _, hrun⟩ := h.pastEntry r hc hs
      ⟨hirq, htag, rfl, hrun⟩
    errUnarmed := by simpa [hh] using h.err_ne_three_of_running hh
    fatalOnce := by simpa [hh] using h.fatalCount_of_running hh }

/-- A trap taken by a running block, whatever the trap context held (60_exceptions.md R229). -/
theorem takeTrap (h : StateInv s) (hh : s.halted = false) (tag : Tag) (syn far : Word) :
    StateInv (takeTrap tag syn far s) :=
  { h with
    irqContext := fun _ => rfl
    pastEntry := by
      rintro _ ⟨⟩ hs
      exact absurd rfl hs
    haltedFrozen := by simp [hh] }

/-- A step of the interrupt service of an armed running block. -/
theorem tcGoto (h : StateInv s) (r : TcRecord) (l : TcLabel)
    (hp : s.inIrq = true ∧ r.tag = irqTag ∧ s.armed = true ∧ s.halted = false) : StateInv (s.tcGoto r l) :=
  { h with
    irqContext := fun _ => rfl
    pastEntry := by
      rintro _ ⟨⟩ -
      exact hp
    haltedFrozen := by
      obtain ⟨-, -, -, hh⟩ := hp
      simp [hh] }

/-- The IRQ entry of an armed running block (41_vector_dispatch.md R166). -/
theorem irqEntry (h : StateInv s) {r : TcRecord} (hc : s.tc = some r) (ht : r.tag = irqTag)
    (ha : s.armed = true) (hh : s.halted = false) : StateInv (irqEntry r s) := by
  have hirq : StateInv { s with inIrq := true } :=
    { h with
      irqContext := fun _ => by simp [hc]
      pastEntry := fun r' hc' hs =>
        have ⟨_, hrest⟩ := h.pastEntry r' hc' hs
        ⟨rfl, hrest⟩ }
  exact hirq.tcGoto r .t1 ⟨rfl, ht, ha, hh⟩

theorem trapReturn (h : StateInv s) (hh : s.halted = false) : StateInv (trapReturn s) :=
  { h with
    irqContext := by simp
    pastEntry := by simp
    haltedFrozen := by simp [hh] }

/-- The report of an unrecognized word is no fatal record (41_vector_dispatch.md R168). -/
theorem emitPending (h : StateInv s) (w : Word) : StateInv (s.emit (pendingReport w)) :=
  { h with
    reportCount := emit_reportCount _ h.reportCount
    mirrored := reportsMirrored_emit s _
    kinds := emit_kinds h.kinds (pendingReport_emittable w)
    fatalOnce := by
      rw [emit_diag, fatalCount_append, h.fatalOnce]
      rfl }

/-- The one record the trap context holds stands at `T0`. -/
theorem step_t0_of_tc {r : TcRecord} (hc : s.tc = some r) (hs : r.step = .t0) :
    ∀ r', s.tc = some r' → r'.step = .t0 := by
  intro r' hc'
  obtain rfl : r = r' := Option.some.inj (hc.symm.trans hc')
  exact hs

/-- The terminal entry at `T0` of an armed running block: the one fatal record comes with the halt
(41_vector_dispatch.md R165). -/
theorem fatalEntry (h : StateInv s) {r : TcRecord} (hc : s.tc = some r) (hs : r.step = .t0)
    (ha : s.armed = true) (hh : s.halted = false) : StateInv (fatalEntry r.tag r.syn r.far s) :=
  { h with
    pastEntry := fun r' hc' hs' => absurd (step_t0_of_tc hc hs r' hc') hs'
    haltedFrozen := fun _ => ⟨r, hc, hs⟩
    errUnarmed := by
      have hne := h.err_ne_three_of_running hh
      constructor
      · exact fun he => absurd he hne
      · exact fun ⟨_, hna⟩ => absurd (ha.symm.trans hna) (by decide)
    reportCount := emit_reportCount _ h.reportCount
    mirrored := reportsMirrored_emit s _
    kinds := emit_kinds h.kinds (fatalReport_emittable _ _ _)
    fatalOnce := by
      calc fatalCount (s.diag ++ [fatalReport r.tag r.syn r.far])
          = fatalCount s.diag + 1 := fatalCount_append _ _
        _ = 1 := by rw [h.fatalCount_of_running hh]
        _ = if true = true ∧ s.armed = true then 1 else 0 := by simp [ha] }

/-- The silent halt at `T0` of an unarmed block: `ERR` takes its own code and no record is due
(41_vector_dispatch.md R164). -/
theorem unarmedEntry (h : StateInv s) {r : TcRecord} (hc : s.tc = some r) (hs : r.step = .t0)
    (ha : s.armed = false) (hh : s.halted = false) : StateInv (unarmedEntry s) :=
  { h with
    pastEntry := fun r' hc' hs' => absurd (step_t0_of_tc hc hs r' hc') hs'
    haltedFrozen := fun _ => ⟨r, hc, hs⟩
    errRange := (by decide : (3 : BitVec 4).toNat ≤ 3)
    errUnarmed := by simp [ha]
    fatalOnce := by simpa [ha] using h.fatalCount_of_running hh }

end StateInv

/-! ### The moves -/

/-- Every micro-step of every operation. A send goes on to `S2` only where the status word shows room, and a receive
counts only below its bound. -/
theorem ForegroundMove.inv {s t : State} {r : FgRecord} (hv : ForegroundMove s r t) (h : StateInv s)
    (hf : s.fg = .busy r) (hh : s.halted = false) : StateInv t := by
  have hdone := h.finish hh (c := 0) (by decide)
  cases hv with
  | vecInit hi hs => exact hdone.arm hh
  | icgEnable line hi hs => exact { hdone with }
  | irqUnmask hi hs => exact { hdone with }
  | sendPoll ch hi hs =>
    refine h.relabel hf _ _ ?_ fun _ _ hstep => ?_
    · rw [hi]
      split <;> rfl
    · have hroom : s.out.length ≠ s.par.mbxDepth := by
        intro hfull
        simp [mbxStatus_outFull, hfull] at hstep
      exact lt_of_le_of_ne h.outBound hroom
  | sendWrite ch hi hs hl => exact hdone.pushOut rfl _ hl
  | sendDrop ch hi hs hl => exact hdone
  | recvBound ch hi hs hn => exact { h.finish hh (c := 2) (by decide) with }
  | recvPoll ch hi hs hn =>
    have hle := h.pollBound r ch hf hi
    refine h.busy _ ?_ ?_ ?_
    · dsimp only
      rw [hi]
      split <;> rfl
    · intro _ _
      show (r.n + 1).toNat ≤ r.a0.toNat
      bv_omega
    · intro ch' hi'
      exact absurd (hi.symm.trans hi') (by simp)
  | recvKeep ch w rest hi hs hb hc => exact { hdone.popIn hb with }
  | recvLose ch w rest hi hs hb hc =>
    exact { (h.relabel hf w .s1 (by rw [hi]; rfl) (fun _ _ hl => nomatch hl)).popIn hb with }
  | recvKeepFree ch hi hs hb hc => exact { hdone with }
  | recvLoseFree ch hi hs hb hc =>
    exact { h.relabel hf (Config.freeWord s.env.draws) .s1 (by rw [hi]; rfl) (fun _ _ hl => nomatch hl) with }
  | initRead hi hs =>
    exact h.relabel hf s.counter .s2 (by rw [hi]; rfl) (fun _ hi' => nomatch hi.symm.trans hi')
  | initProgram hi hs =>
    exact { h.relabel hf (r.t + s.par.interval) .s3 (by rw [hi]; rfl) (fun _ _ hl => nomatch hl) with }
  | initStore hi hs => exact { hdone with }
  | trap tag hi hs => exact hdone.takeTrap hh _ _ _

/-- Every micro-step of the trap context; all but those of `T0` are the interrupt service of an armed block. -/
theorem TrapMove.inv {s t : State} {r : TcRecord} (hv : TrapMove s r t) (h : StateInv s)
    (hc : s.tc = some r) (hh : s.halted = false) : StateInv t := by
  have hpast : r.step ≠ .t0 → _ := h.pastEntry r hc
  cases hv with
  | unarmed hs ha => exact h.unarmedEntry hc hs ha hh
  | fatal hs ha ht => exact h.fatalEntry hc hs ha hh
  | irq hs ha ht => exact h.irqEntry hc ht ha hh
  | route hs => exact h.tcGoto { r with t := s.pending } _ (hpast (by simp [hs]))
  | report hs => exact (h.emitPending r.t).tcGoto r .t3 (hpast (by simp [hs]))
  | advance hs => exact { h.tcGoto r .f2 (hpast (by simp [hs])) with }
  | reprogram hs => exact { h.tcGoto r .f3 (hpast (by simp [hs])) with }
  | acknowledge hs => exact { h.tcGoto r .t3 (hpast (by simp [hs])) with }
  | back hs => exact h.trapReturn hh

/-- Every effect of the register port, which answers a running block with an idle foreground only. -/
theorem PortMove.inv {s t : State} (hv : PortMove s t) (h : StateInv s) (hf : s.fg = .idle)
    (hh : s.halted = false) : StateInv t := by
  cases hv with
  | unchanged => exact h
  | pop w rest hb => exact h.popIn hb
  | push w hl => exact h.pushOut hf w hl
  | launch w i hd => exact { h.launch i with }
  | illegal w why hd => exact h.illegal hh w
  | draw hb => exact { h with }
  | enable w => exact { h with }
  | compare w => exact { h with }
  | acknowledge => exact { h with }
  | arg0 w => exact { h with }
  | arg1 w => exact { h with }

/-- Whatever event has its turn, what it answers meets the invariant. -/
theorem Moved.inv {s t : State} {ev : Event} (hv : Moved s ev t) (h : StateInv s) : StateInv t := by
  cases hv with
  | still => exact h
  | foreground r _ hf hm hm' =>
    obtain ⟨-, hh⟩ := (fgMayStep_iff s).1 hm
    exact hm'.inv h hf hh
  | trapContext r _ hc hh hm => exact hm.inv h hc hh
  | issue a => exact { h with }
  | host a rest u reply hq hp hm =>
    obtain ⟨hf, -, hh⟩ := portFree_spec hp
    have hu : StateInv u := hm.inv { h with } hf hh
    exact { hu with }
  | accept ha =>
    obtain ⟨-, -, -, hh⟩ := irqAcceptable_spec ha
    exact h.takeTrap hh _ _ _
  | present tag syn far ht hh => exact h.takeTrap hh _ _ _
  | presentIrq syn far ha =>
    obtain ⟨-, -, -, hh⟩ := irqAcceptable_spec ha
    exact h.takeTrap hh _ _ _
  | cpPop w rest hb => exact { h.popOut hb with }
  | cpPush w hl => exact h.pushIn w hl
  | tickMatch ha hc => exact { h with }
  | tick hn => exact { h with }
  | setExt w => exact { h with }
  | reset => exact resetWith_inv _ _ h.params

/-- Settles O53: taking the turn off the schedule keeps the invariant, and so does every move a step can make. -/
theorem stepKeepsInvariant : Obligations.StepKeepsInvariant := by
  intro s t h hstep
  obtain ⟨l, n, -, hv⟩ := step_moved hstep
  exact hv.inv { h with }

end Sys2Proof.Machine
end

section
/-!
PROOFS. Who writes what, over every step of every agent: the two FIFOs (10_state.md R25, R26; 20_memory.md R95), the
mode bits (R24, R33, R42), the report stream (R43) and the timer's deadline (R39). Each claim is read off the moves of
one context after the other.
-/

namespace Sys2Proof.Machine

/-! ### The FIFOs -/

/-- The foreground pushes `OUT` where there is room. -/
theorem ForegroundMove.out_cases {s t : State} {r : FgRecord} (hv : ForegroundMove s r t) :
    t.out = s.out ∨ ∃ w, t.out = s.out ++ [w] ∧ s.out.length < s.par.mbxDepth := by
  cases hv with
  | sendWrite ch hi hs hl => exact .inr ⟨_, rfl, hl⟩
  | _ => exact .inl rfl

/-- The foreground pops `IN`. -/
theorem ForegroundMove.inb_cases {s t : State} {r : FgRecord} (hv : ForegroundMove s r t) :
    t.inb = s.inb ∨ ∃ w, s.inb = w :: t.inb := by
  cases hv with
  | recvKeep ch w rest hi hs hb hc => exact .inr ⟨w, hb⟩
  | recvLose ch w rest hi hs hb hc => exact .inr ⟨w, hb⟩
  | _ => exact .inl rfl

theorem TrapMove.out_eq {s t : State} {r : TcRecord} (hv : TrapMove s r t) : t.out = s.out := by
  cases hv <;> rfl

theorem TrapMove.inb_eq {s t : State} {r : TcRecord} (hv : TrapMove s r t) : t.inb = s.inb := by
  cases hv <;> rfl

theorem PortMove.out_cases {s t : State} (hv : PortMove s t) :
    t.out = s.out ∨ ∃ w, t.out = s.out ++ [w] ∧ s.out.length < s.par.mbxDepth := by
  cases hv with
  | push w hl => exact .inr ⟨w, rfl, hl⟩
  | _ => exact .inl rfl

theorem PortMove.inb_cases {s t : State} (hv : PortMove s t) : t.inb = s.inb ∨ ∃ w, s.inb = w :: t.inb := by
  cases hv with
  | pop w rest hb => exact .inr ⟨w, hb⟩
  | _ => exact .inl rfl

/-- What any event can do to `OUT`. -/
theorem Moved.out_cases {s t : State} {ev : Event} (hv : Moved s ev t) :
    t.out = s.out ∨
      (∃ w, t.out = s.out ++ [w] ∧ s.out.length < s.par.mbxDepth ∧ (ev = .foreground ∨ ev = .host)) ∨
      (∃ w, s.out = w :: t.out ∧ ev = .cpPop ∧ t.env.cpTaken = some w) ∨
      (ev = .reset ∧ t.out = []) := by
  cases hv with
  | foreground r _ hf hm hm' =>
    obtain he | ⟨w, he, hl⟩ := hm'.out_cases
    · exact .inl he
    · exact .inr (.inl ⟨w, he, hl, .inl rfl⟩)
  | trapContext r _ hc hh hm => exact .inl hm.out_eq
  | host a rest u reply hq hp hm =>
    obtain he | ⟨w, he, hl⟩ := hm.out_cases
    · exact .inl he
    · exact .inr (.inl ⟨w, he, hl, .inr rfl⟩)
  | cpPop w rest hb => exact .inr (.inr (.inl ⟨w, hb, rfl, rfl⟩))
  | reset => exact .inr (.inr (.inr ⟨rfl, rfl⟩))
  | _ => exact .inl rfl

/-- What any event can do to `IN`. -/
theorem Moved.inb_cases {s t : State} {ev : Event} (hv : Moved s ev t) :
    t.inb = s.inb ∨
      (∃ w, t.inb = s.inb ++ [w] ∧ s.inb.length < s.par.mbxDepth ∧ ev = .cpPush w) ∨
      (∃ w, s.inb = w :: t.inb ∧ (ev = .foreground ∨ ev = .host)) ∨
      (ev = .reset ∧ t.inb = []) := by
  cases hv with
  | foreground r _ hf hm hm' =>
    obtain he | ⟨w, he⟩ := hm'.inb_cases
    · exact .inl he
    · exact .inr (.inr (.inl ⟨w, he, .inl rfl⟩))
  | trapContext r _ hc hh hm => exact .inl hm.inb_eq
  | host a rest u reply hq hp hm =>
    obtain he | ⟨w, he⟩ := hm.inb_cases
    · exact .inl he
    · exact .inr (.inr (.inl ⟨w, he, .inr rfl⟩))
  | cpPush w hl => exact .inr (.inl ⟨w, rfl, hl, rfl⟩)
  | reset => exact .inr (.inr (.inr ⟨rfl, rfl⟩))
  | _ => exact .inl rfl

/-- Settles O55: a step is a move from the state with its turn taken, which holds the same FIFOs. -/
theorem fifosKeepOrder : Obligations.FifosKeepOrder := by
  intro s t h
  obtain ⟨l, n, -, hv⟩ := step_moved h
  exact ⟨hv.out_cases, hv.inb_cases⟩

/-! ### The mode bits -/

theorem ForegroundMove.armed_cases {s t : State} {r : FgRecord} (hv : ForegroundMove s r t) :
    t.armed = s.armed ∨ t.armed = true ∧ r.instr = .vecInit := by
  cases hv with
  | vecInit hi hs => exact .inr ⟨rfl, hi⟩
  | _ => exact .inl rfl

theorem ForegroundMove.gie_cases {s t : State} {r : FgRecord} (hv : ForegroundMove s r t) :
    t.gie = s.gie ∨ t.gie = true ∧ r.instr = .irqUnmask := by
  cases hv with
  | irqUnmask hi hs => exact .inr ⟨rfl, hi⟩
  | _ => exact .inl rfl

theorem TrapMove.armed_eq {s t : State} {r : TcRecord} (hv : TrapMove s r t) : t.armed = s.armed := by
  cases hv <;> rfl

theorem TrapMove.gie_eq {s t : State} {r : TcRecord} (hv : TrapMove s r t) : t.gie = s.gie := by
  cases hv <;> rfl

theorem PortMove.armed_eq {s t : State} (hv : PortMove s t) : t.armed = s.armed := by
  cases hv <;> rfl

theorem PortMove.gie_eq {s t : State} (hv : PortMove s t) : t.gie = s.gie := by
  cases hv <;> rfl

/-- But for a reset, `ARMED` stays as it is or is set by the foreground's `VEC.INIT`. -/
theorem Moved.armed_cases {s t : State} {ev : Event} (hv : Moved s ev t) (hr : ev ≠ .reset) :
    t.armed = s.armed ∨ t.armed = true ∧ ∃ r, s.fg = .busy r ∧ r.instr = .vecInit ∧ ev = .foreground := by
  cases hv with
  | foreground r _ hf hm hm' =>
    obtain he | ⟨he, hi⟩ := hm'.armed_cases
    · exact .inl he
    · exact .inr ⟨he, r, hf, hi, rfl⟩
  | trapContext r _ hc hh hm => exact .inl hm.armed_eq
  | host a rest u reply hq hp hm => exact .inl hm.armed_eq
  | reset => exact absurd rfl hr
  | _ => exact .inl rfl

/-- But for a reset, `GIE` stays as it is or is set by the foreground's `IRQ.UNMASK`. -/
theorem Moved.gie_cases {s t : State} {ev : Event} (hv : Moved s ev t) (hr : ev ≠ .reset) :
    t.gie = s.gie ∨ t.gie = true ∧ ∃ r, s.fg = .busy r ∧ r.instr = .irqUnmask ∧ ev = .foreground := by
  cases hv with
  | foreground r _ hf hm hm' =>
    obtain he | ⟨he, hi⟩ := hm'.gie_cases
    · exact .inl he
    · exact .inr ⟨he, r, hf, hi, rfl⟩
  | trapContext r _ hc hh hm => exact .inl hm.gie_eq
  | host a rest u reply hq hp hm => exact .inl hm.gie_eq
  | reset => exact absurd rfl hr
  | _ => exact .inl rfl

/-- A bit that either stays or is set for the reason `P` is never cleared, and where it rises `P` holds. -/
theorem sticky_of_cases {b b' : Bool} {P : Prop} (h : b' = b ∨ b' = true ∧ P) :
    (b = true → b' = true) ∧ (b = false → b' = true → P) := by
  obtain rfl | ⟨rfl, hP⟩ := h
  · exact ⟨id, fun hf ht => absurd (hf.symm.trans ht) (by decide)⟩
  · exact ⟨fun _ => rfl, fun _ _ => hP⟩

/-- Settles O57: each bit stays or is set by its own operation. -/
theorem modeBitsAreSticky : Obligations.ModeBitsAreSticky := by
  intro s t h hr
  obtain ⟨l, n, -, hv⟩ := step_moved h
  obtain ⟨hakeep, harise⟩ := sticky_of_cases (hv.armed_cases hr)
  obtain ⟨hgkeep, hgrise⟩ := sticky_of_cases (hv.gie_cases hr)
  exact ⟨hakeep, hgkeep, harise, hgrise⟩

/-! ### The report stream -/

theorem ForegroundMove.diag_eq {s t : State} {r : FgRecord} (hv : ForegroundMove s r t) : t.diag = s.diag := by
  cases hv <;> rfl

/-- The trap context emits at its terminal entry and at `T2`, one record each time. -/
theorem TrapMove.diag_cases {s t : State} {r : TcRecord} (hv : TrapMove s r t) :
    t.diag = s.diag ∨ ∃ rec, t.diag = s.diag ++ [rec] ∧ emittable rec := by
  cases hv with
  | fatal hs ha ht => exact .inr ⟨_, rfl, fatalReport_emittable _ _ _⟩
  | report hs => exact .inr ⟨_, rfl, pendingReport_emittable _⟩
  | _ => exact .inl rfl

theorem PortMove.diag_eq {s t : State} (hv : PortMove s t) : t.diag = s.diag := by
  cases hv <;> rfl

theorem Moved.diag_cases {s t : State} {ev : Event} (hv : Moved s ev t) (hr : ev ≠ .reset) :
    t.diag = s.diag ∨ ∃ rec, t.diag = s.diag ++ [rec] ∧ ev = .trapContext ∧ emittable rec := by
  cases hv with
  | foreground r _ hf hm hm' => exact .inl hm'.diag_eq
  | trapContext r _ hc hh hm =>
    obtain he | ⟨rec, he, hrec⟩ := hm.diag_cases
    · exact .inl he
    · exact .inr ⟨rec, he, rfl, hrec⟩
  | host a rest u reply hq hp hm => exact .inl hm.diag_eq
  | reset => exact absurd rfl hr
  | _ => exact .inl rfl

/-- Settles O58: no agent but the trap context has a move that emits. -/
theorem diagIsAppendOnly : Obligations.DiagIsAppendOnly := by
  intro s t h hr
  obtain ⟨l, n, -, hv⟩ := step_moved h
  exact hv.diag_cases hr

/-! ### The deadline -/

/-- `S3` of `TMR.INIT` is the foreground's one write of the deadline (43_timer.md R196). -/
theorem ForegroundMove.nextDeadline_eq {s t : State} {r : FgRecord} (hv : ForegroundMove s r t) :
    t.nextDeadline = if r.instr = .tmrInit ∧ r.step = .s3 then r.t else s.nextDeadline := by
  cases hv with
  | initStore hi hs => rw [if_pos ⟨hi, hs⟩]
  | initRead hi hs | initProgram hi hs => simp [hs]
  | _ => simp [*]

/-- `F1` of `TMR.FIRE` is the trap context's one write of the deadline (43_timer.md R199). -/
theorem TrapMove.nextDeadline_eq {s t : State} {r : TcRecord} (hv : TrapMove s r t) :
    t.nextDeadline = if r.step = .f1 then s.nextDeadline + s.par.interval else s.nextDeadline := by
  cases hv with
  | advance hs => rw [if_pos hs]
  | fatal hs ha ht => simp [hs, fatalEntry]
  | report hs => simp [hs]
  | _ => simp [*]

theorem PortMove.nextDeadline_eq {s t : State} (hv : PortMove s t) : t.nextDeadline = s.nextDeadline := by
  cases hv <;> rfl

/-- The next step is `F1`, of the record the trap context holds. -/
theorem isFire_iff (s : State) :
    isFire s = true ↔ nextEvent s = .trapContext ∧ s.halted = false ∧ ∃ r, s.tc = some r ∧ r.step = .f1 := by
  cases hc : s.tc <;> simp [isFire, hc, and_assoc]

theorem isRebase_iff (s : State) :
    isRebase s = true ↔ nextEvent s = .reset ∨ nextEvent s = .foreground ∧ s.fgMayStep = true ∧
      ∃ r, s.fg = .busy r ∧ r.instr = .tmrInit ∧ r.step = .s3 := by
  cases hf : s.fg <;> simp [isRebase, hf, and_assoc]

theorem Moved.nextDeadline_of_reset {s t : State} (hv : Moved s .reset t) : t.nextDeadline = 0 := by
  cases hv with
  | still _ hf hc ht hr => exact absurd rfl hr
  | reset => rfl

theorem Moved.nextDeadline_of_foreground {s t : State} {r : FgRecord} (hv : Moved s .foreground t)
    (hf : s.fg = .busy r) (hm : s.fgMayStep = true) :
    t.nextDeadline = if r.instr = .tmrInit ∧ r.step = .s3 then r.t else s.nextDeadline := by
  cases hv with
  | still _ hstill hc ht hr => simp [hf, hm] at hstill
  | foreground r' _ hf' hm' hv' =>
    obtain rfl : r = r' := Foreground.busy.inj (hf.symm.trans hf')
    exact hv'.nextDeadline_eq

theorem Moved.nextDeadline_of_trapContext {s t : State} {r : TcRecord} (hv : Moved s .trapContext t)
    (hc : s.tc = some r) (hh : s.halted = false) :
    t.nextDeadline = if r.step = .f1 then s.nextDeadline + s.par.interval else s.nextDeadline := by
  cases hv with
  | still _ hf hstill ht hr => simp [hc, hh] at hstill
  | trapContext r' _ hc' hh' hv' =>
    obtain rfl : r = r' := Option.some.inj (hc.symm.trans hc')
    exact hv'.nextDeadline_eq

/-- Every move but a reset, `S3` of `TMR.INIT` and `F1` leaves the deadline (10_state.md R39). -/
theorem Moved.nextDeadline_kept {s t : State} {ev : Event} (hv : Moved s ev t) (hr : ev ≠ .reset)
    (hinit : ∀ r, ev = .foreground → s.fgMayStep = true → s.fg = .busy r → ¬ (r.instr = .tmrInit ∧ r.step = .s3))
    (hfire : ∀ r, ev = .trapContext → s.halted = false → s.tc = some r → r.step ≠ .f1) :
    t.nextDeadline = s.nextDeadline := by
  cases hv with
  | foreground r _ hf hm hm' => rw [hm'.nextDeadline_eq, if_neg (hinit r rfl hm hf)]
  | trapContext r _ hc hh hm => rw [hm.nextDeadline_eq, if_neg (hfire r rfl hh hc)]
  | host a rest u reply hq hp hm => exact hm.nextDeadline_eq
  | reset => exact absurd rfl hr
  | _ => rfl

/-- Settles O59: the reset, the two writing micro-steps, and every other move. -/
theorem deadlineBelongsToTimer : Obligations.DeadlineBelongsToTimer := by
  intro s t h
  obtain ⟨l, n, -, hv⟩ := step_moved h
  refine ⟨fun hr => ?_, fun r hev hm hf hi hs => ?_, fun hfire => ?_, fun hbase hfire => ?_⟩
  · rw [hr] at hv
    exact hv.nextDeadline_of_reset
  · rw [hev] at hv
    rw [hv.nextDeadline_of_foreground hf hm, if_pos ⟨hi, hs⟩]
  · obtain ⟨hev, hh, r, hc, hs⟩ := (isFire_iff s).1 hfire
    rw [hev] at hv
    rw [hv.nextDeadline_of_trapContext hc hh, if_pos hs]
  · rw [← Bool.not_eq_true, isRebase_iff, not_or] at hbase
    rw [← Bool.not_eq_true, isFire_iff] at hfire
    obtain ⟨hr, hinit⟩ := hbase
    exact hv.nextDeadline_kept hr (fun r hev hm hf hi => hinit ⟨hev, hm, r, hf, hi⟩)
      (fun r hev hh hc hs => hfire ⟨hev, hh, r, hc, hs⟩)

end Sys2Proof.Machine
end

section
/-!
PROOFS. The launch of an operation: the write of `OP_CMD` (20_memory.md R86; 30_encoding.md R103, R108), and `exec` from
an idle foreground (log entry 11).
-/

namespace Sys2Proof.Machine

/-- The first micro-step writes `FG` whatever stood there. -/
theorem microBody_launch_ignores_fg (i : Instr) (s : State) (f : Foreground) :
    microBody i { s with fg := f } (launchRecord i s) = microBody i s (launchRecord i s) := by
  cases i <;> rfl

/-- Every operation has the label an operation is launched at. -/
theorem hasLabel_s1 (i : Instr) : hasLabel i .s1 = true := by
  cases i <;> rfl

theorem exec_of_idle {s : State} (i : Instr) (hm : s.fgMayStep = true) (hf : s.fg = .idle) :
    exec i s = microBody i s (launchRecord i s) := by
  rw [exec_eq_microStep, microStep_idle i _ s hm hf]

theorem exec_of_launched {s : State} (i : Instr) (hm : s.fgMayStep = true) :
    exec i { s with fg := .busy (launchRecord i s) } =
      microBody i { s with fg := .busy (launchRecord i s) } (launchRecord i s) := by
  rw [exec_eq_microStep]
  exact microStep_busy i _ _ _ hm rfl rfl

/-- Settles O11: both sides are the first micro-step in the launch record, which does not depend on `FG`. -/
theorem idleForegroundLaunches : Obligations.IdleForegroundLaunches := by
  intro i s hf hc hh
  have hm : s.fgMayStep = true := (fgMayStep_iff s).2 ⟨hc, hh⟩
  refine ⟨?_, ?_⟩
  · calc exec i s = microBody i s (launchRecord i s) := exec_of_idle i hm hf
      _ = microBody i { s with fg := .busy (launchRecord i s) } (launchRecord i s) :=
        (microBody_launch_ignores_fg i s _).symm
      _ = exec i { s with fg := .busy (launchRecord i s) } := (exec_of_launched i hm).symm
  · rw [exec_of_idle i hm hf]
    exact microBody_next s (hasLabel_s1 i)

theorem writeOpCmd_legal {w : Word} {i : Instr} (s : State) (hd : decode w = .legal i) :
    writeOpCmd w s = { s with lastCmd := w, fg := .busy (launchRecord i s) } := by
  obtain ⟨j, hj, hw⟩ | ⟨why, hj, -⟩ := writeOpCmd_cases w s
  · cases hd.symm.trans hj
    exact hw
  · cases hd.symm.trans hj

theorem writeOpCmd_illegal {w : Word} {why : Reject} (s : State) (hd : decode w = .illegal why) :
    writeOpCmd w s = { s with lastCmd := w, err := 1 } := by
  obtain ⟨i, hj, -⟩ | ⟨_, -, hw⟩ := writeOpCmd_cases w s
  · cases hd.symm.trans hj
  · exact hw

/-- Settles O12: the decoder's answer selects the one effect or the other. -/
theorem commandWriteLaunchesOrRefuses : Obligations.CommandWriteLaunchesOrRefuses :=
  fun s _ => ⟨fun _ hd => writeOpCmd_legal s hd, fun _ hd => writeOpCmd_illegal s hd⟩

end Sys2Proof.Machine
end

section
/-!
PROOFS. The registers of the port: the two words made of flags bit by bit (20_memory.md R89, R90), and the effect of a
read and of a write of each register (R73 to R92).
-/

namespace Sys2Proof.Machine

/-! ### `OP_STATUS` and `EVD_ROUTE` -/

/-- The completion code stands at bits 11:8 of `OP_STATUS` (20_memory.md R89). -/
theorem errField_getLsbD (e : BitVec 4) {k : Nat} (hk : k < 32) :
    (e.setWidth 32 <<< 8).getLsbD k = (decide (8 ≤ k) && e.getLsbD (k - 8)) := by
  by_cases h8 : 8 ≤ k
  · simp [hk, h8, Nat.not_lt.2 h8]
  · simp [h8, Nat.lt_of_not_le h8]

theorem errBit_outside (e : BitVec 4) {k : Nat} (hk : k < 8 ∨ 12 ≤ k) :
    (decide (8 ≤ k) && e.getLsbD (k - 8)) = false := by
  obtain hk | hk := hk
  · simp [hk]
  · rw [BitVec.getLsbD_of_ge _ _ (by omega), Bool.and_false]

/-- `OP_STATUS` as the six flags, each at its own bit, and the completion code above them (20_memory.md R89). -/
theorem opStatus_getLsbD (s : State) {k : Nat} (hk : k < 32) :
    s.opStatus.getLsbD k =
      (s.armed && decide (k = 0) || s.gie && decide (k = 1) || s.inIrq && decide (k = 2) ||
        s.halted && decide (k = 3) || s.tmrArmed && decide (k = 4) || s.matchFlag && decide (k = 5) ||
        decide (8 ≤ k) && s.err.getLsbD (k - 8)) := by
  simp only [State.opStatus, BitVec.getLsbD_or, flagBit_getLsbD _ hk, errField_getLsbD _ hk]

/-- Only the IRQ tag is dispatched, so that bit 13 alone is set (20_memory.md R90). -/
theorem evdRouteWord_eq : evdRouteWord = 0x00002000#32 := by decide

/-- `IN_IRQ` is 0 while no trap context is active (10_state.md R46). -/
theorem StateInv.inIrq_of_tc_none {s : State} (h : StateInv s) (hc : s.tc = none) : s.inIrq = false := by
  by_contra hi
  simpa [hc] using h.irqContext (eq_true_of_ne_false hi)

/-- Settles O43: the bits of `OP_STATUS` one by one, and the fixed word of the routes. -/
theorem statusWordBits : Obligations.StatusWordBits := by
  refine ⟨fun s => ⟨s.opStatus, rfl, fun k hk => ?_, fun hinv hp => ?_⟩, fun s => ?_, by decide⟩
  · rw [opStatus_getLsbD s hk]
    split
    case h_11 h0 h1 h2 h3 h4 h5 h8 h9 h10 h11 =>
      simp only [imp_false] at h0 h1 h2 h3 h4 h5 h8 h9 h10 h11
      have herr : (decide (8 ≤ k) && s.err.getLsbD (k - 8)) = false := errBit_outside s.err (by omega)
      simp [h0, h1, h2, h3, h4, h5, herr]
    all_goals simp
  · obtain ⟨-, hc, hh⟩ := portFree_spec hp
    rw [opStatus_getLsbD s (by decide), opStatus_getLsbD s (by decide), hinv.inIrq_of_tc_none hc, hh]
    simp
  · rw [← evdRouteWord_eq]
    rfl

/-! ### Reads -/

theorem flagBit_zero_eq_setWidth (b : Bool) : flagBit b 0 = (BitVec.ofBool b).setWidth 32 := by
  cases b <;> rfl

/-- Settles O45: each register but `MBX_DATA` shows its word; two of the words are derived ones. -/
theorem registerReads : Obligations.RegisterReads := by
  intro s
  rw [← evdRouteWord_eq, ← flagBit_zero_eq_setWidth]
  exact ⟨rfl, rfl, rfl, rfl, rfl, rfl, rfl, rfl, rfl, rfl, rfl, rfl, rfl, rfl, rfl, rfl, rfl, rfl, rfl, rfl⟩

/-! ### The mailbox data port -/

/-- Settles O46: the two cases of the read and the two of the write, each excluded where it does not apply. -/
theorem mailboxDataPort : Obligations.MailboxDataPort := by
  intro s w
  refine ⟨fun v rest hb => ?_, fun hb => ?_, fun hl => if_pos hl, fun hl => if_neg (Nat.not_lt.2 hl)⟩
  · obtain ⟨v', rest', hb', hr⟩ | ⟨hb', -⟩ := readMbxData_cases s
    · cases hb.symm.trans hb'
      exact hr
    · cases hb.symm.trans hb'
  · obtain ⟨v, rest, hb', -⟩ | ⟨-, hr⟩ := readMbxData_cases s
    · cases hb.symm.trans hb'
    · exact hr

/-! ### Writes -/

/-- Settles O47: only the match-clear register looks at the word it is written. -/
theorem registerWrites : Obligations.RegisterWrites := by
  intro s w
  refine ⟨rfl, rfl, rfl, rfl, fun hb => if_pos hb, fun hb => if_neg (Bool.eq_false_iff.1 hb), fun r hr => ?_⟩
  fin_cases hr <;> rfl

end Sys2Proof.Machine
end

section
/-!
PROOFS. The register port: which accesses it admits (20_memory.md R70, R71), and how it holds, serves and refuses the
accesses issued to it (R93, R98).
-/

namespace Sys2Proof.Machine

/-! ### Admission -/

theorem inWindow_iff (p : Params) (addr : Nat) :
    inWindow p addr = true ↔ p.blockBase ≤ addr ∧ addr < p.blockBase + 0x80 := by
  simp [inWindow]

theorem admission_aligned {p : Params} {addr : Nat} (hw : inWindow p addr = true) (ha : addr % 4 = 0) :
    admission p addr .word = .admitted (regOfSlot ((addr - p.blockBase) / 4)) := by
  simp [admission, hw, ha]

theorem admission_misfit {p : Params} {addr : Nat} {size : AccessSize} (hw : inWindow p addr = true)
    (hm : size ≠ .word ∨ addr % 4 ≠ 0) : admission p addr size = .notAdmitted := by
  rw [admission, if_pos hw, if_neg (by tauto)]

theorem admission_outside {p : Params} {addr : Nat} (size : AccessSize) (hw : inWindow p addr = false) :
    admission p addr size = .outside := by
  simp [admission, hw]

/-- Settles O44: slot `k` of a base that is a multiple of 0x80 is an aligned address of the window. -/
theorem windowMap : Obligations.WindowMap := by
  intro p addr size
  refine ⟨fun k hk haddr hbase hsize => ?_, fun hlo hhi hm => ?_, fun hout => ?_⟩
  · subst haddr hsize
    have hslot : (p.blockBase + 4 * k - p.blockBase) / 4 = k := by omega
    rw [admission_aligned ((inWindow_iff _ _).2 (by omega)) (by omega), hslot]
    rfl
  · exact admission_misfit ((inWindow_iff _ _).2 ⟨hlo, hhi⟩) hm
  · refine admission_outside size ?_
    rw [← Bool.not_eq_true, inWindow_iff]
    omega

/-! ### The port's turn -/

theorem portFree_iff (s : State) : s.portFree = true ↔ s.fg = .idle ∧ s.tc = none ∧ s.halted = false := by
  simp [State.portFree, and_assoc]

theorem portFree_eq_false_iff (s : State) :
    s.portFree = false ↔ s.fg ≠ .idle ∨ s.tc ≠ none ∨ s.halted = true := by
  rw [← Bool.not_eq_true, portFree_iff, not_and_or, not_and_or, Bool.not_eq_false]

theorem hostTurn_held {s : State} (hp : s.portFree = false) : hostTurn s = .next s := by
  obtain hn | ⟨a, rest, -, hfree, -⟩ := hostTurn_cases s
  · exact hn
  · simp [hp] at hfree

theorem hostTurn_free {s : State} {a : Access} {rest : List Access} (hp : s.portFree = true)
    (hq : s.env.hostQueue = a :: rest) :
    hostTurn s = serveAccess a { s with env := { s.env with hostQueue := rest } } := by
  simp [hostTurn, hq, hp]

section ServeAccess

variable {s : State} {addr : Nat} {size : AccessSize}

theorem serveAccess_read {r : Reg} (h : admission s.par addr size = .admitted r) :
    serveAccess (.read addr size) s = .next ((regRead r s).2.answer (.value (regRead r s).1)) := by
  simp [serveAccess, h]

theorem serveAccess_write {r : Reg} (w : Word) (h : admission s.par addr size = .admitted r) :
    serveAccess (.write addr size w) s = .next ((regWrite r w s).answer .written) := by
  simp [serveAccess, h]

variable {a : Access}

/-- A read and a write are refused alike. -/
theorem serveAccess_notAdmitted (h : admission s.par a.addr a.size = .notAdmitted) :
    serveAccess a s = .refused .accessNotAdmitted := by
  cases a <;> simp only [Access.addr, Access.size] at h <;> simp only [serveAccess, h]

theorem serveAccess_outside (h : admission s.par a.addr a.size = .outside) :
    serveAccess a s = .refused .outsideWindow := by
  cases a <;> simp only [Access.addr, Access.size] at h <;> simp only [serveAccess, h]

end ServeAccess

/-! ### The held accesses over every step -/

theorem ForegroundMove.hostQueue {s t : State} {r : FgRecord} (hv : ForegroundMove s r t) :
    t.env.hostQueue = s.env.hostQueue := by
  cases hv <;> rfl

theorem TrapMove.hostQueue {s t : State} {r : TcRecord} (hv : TrapMove s r t) :
    t.env.hostQueue = s.env.hostQueue := by
  cases hv <;> rfl

/-- What any event but an issue can do to the held accesses. -/
theorem Moved.hostQueue_cases {s t : State} {ev : Event} (hv : Moved s ev t) (hi : ∀ a, ev ≠ .issue a) :
    t.env.hostQueue = s.env.hostQueue ∨
      (ev = .host ∧ s.portFree = true ∧ ∃ a, s.env.hostQueue = a :: t.env.hostQueue) := by
  cases hv with
  | foreground r _ hf hm hm' => exact .inl hm'.hostQueue
  | trapContext r _ hc hh hm => exact .inl hm.hostQueue
  | issue a => exact absurd rfl (hi a)
  | host a rest u reply hq hp hm =>
    have hrest : (u.answer reply).env.hostQueue = rest := hm.hostQueue
    exact .inr ⟨rfl, hp, a, by rw [hq, hrest]⟩
  | _ => exact .inl rfl

theorem step_issue_hostQueue {s t : State} {a : Access} (h : step s = .next t) (he : nextEvent s = .issue a) :
    t.env.hostQueue = s.env.hostQueue ++ [a] := by
  rw [step, he] at h
  cases h
  simp

/-- Settles O48: a busy port, a free one with its oldest access, and the held accesses over every step. -/
theorem portHoldsThenServes : Obligations.PortHoldsThenServes := by
  refine ⟨fun s hbusy => hostTurn_held ((portFree_eq_false_iff s).2 hbusy), fun s addr rest r hf hc hh hq hadm => ?_,
    fun s addr w rest r hf hc hh hq hadm => ?_, fun s addr size w rest hf hc hh hq => ?_, fun s a => rfl,
    fun s t h => ⟨fun a he => step_issue_hostQueue h he, fun hi hne => ?_⟩⟩
  · exact (hostTurn_free ((portFree_iff s).2 ⟨hf, hc, hh⟩) hq).trans (serveAccess_read hadm)
  · exact (hostTurn_free ((portFree_iff s).2 ⟨hf, hc, hh⟩) hq).trans (serveAccess_write w hadm)
  · have hp := (portFree_iff s).2 ⟨hf, hc, hh⟩
    obtain ⟨a, hqa, haddr, hsize⟩ : ∃ a, s.env.hostQueue = a :: rest ∧ a.addr = addr ∧ a.size = size := by
      obtain hq | hq := hq
      · exact ⟨_, hq, rfl, rfl⟩
      · exact ⟨_, hq, rfl, rfl⟩
    subst haddr hsize
    rw [hostTurn_free hp hqa]
    exact ⟨fun h => serveAccess_notAdmitted h, fun h => serveAccess_outside h⟩
  · obtain ⟨l, n, -, hv⟩ := step_moved h
    exact (hv.hostQueue_cases hi).resolve_left hne

end Sys2Proof.Machine
end

section
/-!
PROOFS. The decoder and the encoder against each other (30_encoding.md R102, R104, R105, R107): which fields a legal
word has, the list of all operations, and the rows of the opcode table.
-/

namespace Sys2Proof

/-! ### What the decoder reads, field by field -/

theorem decodePlain_eq_legal_iff {sel : BitVec 5} {i j : Instr} :
    decodePlain sel j = .legal i ↔ j = i ∧ sel = 0#5 := by
  unfold decodePlain
  split <;> simp [*]

/-- `SEL[4]` is 0 where `SEL` is the operand widened, and only there. -/
theorem selector_nibble_iff {sel : BitVec 5} {n : BitVec 4} :
    sel.getLsbD 4 = false ∧ sel.extractLsb' 0 4 = n ↔ sel = n.setWidth 5 := by
  revert sel n
  decide

theorem decodeNibble_eq_legal_iff {sel : BitVec 5} {f : BitVec 4 → Instr} {i : Instr} :
    decodeNibble sel f = .legal i ↔ ∃ n, f n = i ∧ sel = n.setWidth 5 := by
  unfold decodeNibble
  split <;> simp_all [← selector_nibble_iff]

/-- The selector step accepts an operation at its own opcode and selector (R104, R105). -/
theorem decodeSelected_eq_legal_iff {op : BitVec 4} {sel : BitVec 5} {i : Instr} :
    decodeSelected op sel = .legal i ↔ op = opcode i ∧ sel = selector i := by
  constructor
  · intro h
    unfold decodeSelected at h
    split at h <;> rename_i hop
    case h_8 => cases h
    case h_3 => cases h; exact ⟨BitVec.eq_of_toNat_eq hop, rfl⟩
    case h_1 | h_2 | h_4 =>
      obtain ⟨rfl, rfl⟩ := decodePlain_eq_legal_iff.1 h
      exact ⟨BitVec.eq_of_toNat_eq hop, rfl⟩
    case h_5 | h_6 | h_7 =>
      obtain ⟨n, rfl, rfl⟩ := decodeNibble_eq_legal_iff.1 h
      exact ⟨BitVec.eq_of_toNat_eq hop, rfl⟩
  · rintro ⟨rfl, rfl⟩
    cases i with
    | vecInit | tmrInit | irqUnmask | icgEnable line => rfl
    | mbxSend n | mbxRecv n | trap n => exact decodeNibble_eq_legal_iff.2 ⟨n, rfl, rfl⟩

/-- No operation has a reserved opcode (R104). -/
theorem opcode_not_reserved (i : Instr) : ¬(opcode i = 0#4 ∨ 8 ≤ (opcode i).toNat) := by
  cases i <;> simp [opcode]

/-- A word is the operation `i` when its fields are those of R104 and R105. -/
theorem decode_eq_legal_iff {w : Word} {i : Instr} :
    decode w = .legal i ↔ opField w = opcode i ∧ selField w = selector i ∧ zeroField w = 0#23 := by
  unfold decode
  split
  next hres =>
    have hne : opField w ≠ opcode i := fun h => opcode_not_reserved i (h ▸ hres)
    simp [hne]
  next => split <;> simp_all [decodeSelected_eq_legal_iff]

/-- Settles O1: the word of an operation is the one word with its fields. -/
theorem decodeExactlyEncode : Obligations.DecodeExactlyEncode := by
  intro w i
  calc decode w = .legal i
      ↔ opField w = opcode i ∧ selField w = selector i ∧ zeroField w = 0#23 := decode_eq_legal_iff
    _ ↔ w = encode i := (eq_commandWord_iff w (opcode i) (selector i)).symm

/-! ### The fields as numbers (R102) -/

/-- `SEL` is the operand as an unsigned number, neither sign-extended nor scaled (R105). -/
theorem selector_nibble_toNat (n : BitVec 4) : (n.setWidth 5).toNat = n.toNat :=
  BitVec.toNat_setWidth_of_le (by decide)

theorem decode_eq_legal_iff_toNat {w : Word} {i : Instr} :
    decode w = .legal i ↔ w.toNat / 2 ^ 28 = (opcode i).toNat ∧
      w.toNat / 2 ^ 23 % 2 ^ 5 = (selector i).toNat ∧ w.toNat % 2 ^ 23 = 0 := by
  obtain ⟨hop, hsel, hzero⟩ := fields_toNat w
  rw [decode_eq_legal_iff, ← BitVec.toNat_inj, ← BitVec.toNat_inj, ← BitVec.toNat_inj, hop, hsel, hzero]
  rfl

/-- The three operations that carry a channel or a tag. -/
theorem decode_eq_nibble_iff {w : Word} {i : Instr} {n : BitVec 4} (hsel : selector i = n.setWidth 5) :
    decode w = .legal i ↔ w.toNat / 2 ^ 28 = (opcode i).toNat ∧
      w.toNat / 2 ^ 23 % 2 ^ 5 = n.toNat ∧ w.toNat % 2 ^ 23 = 0 := by
  rw [decode_eq_legal_iff_toNat, hsel, selector_nibble_toNat]

/-- Settles O2: the fields of each operation are the numbers of its row. -/
theorem decodeReadsFields : Obligations.DecodeReadsFields := by
  intro w op sel low
  exact ⟨decode_eq_legal_iff_toNat, decode_eq_legal_iff_toNat, fun line => decode_eq_legal_iff_toNat,
    decode_eq_legal_iff_toNat, fun ch => decode_eq_nibble_iff rfl, fun ch => decode_eq_nibble_iff rfl,
    fun tag => decode_eq_nibble_iff rfl⟩

/-! ### The legal words and the illegal ones (R107) -/

/-- Every opcode and selector the table allows is that of some operation. -/
theorem exists_opcode_selector_iff {op : Nat} {sel : Nat} :
    (∃ i : Instr, op = (opcode i).toNat ∧ sel = (selector i).toNat) ↔
      ((op = 1 ∨ op = 2 ∨ op = 4) ∧ sel = 0) ∨ (op = 3 ∧ sel < 32) ∨
        ((op = 5 ∨ op = 6 ∨ op = 7) ∧ sel < 16) := by
  constructor
  · rintro ⟨i, rfl, rfl⟩
    cases i with
    | vecInit | tmrInit | irqUnmask => decide
    | icgEnable line => exact .inr (.inl ⟨rfl, line.isLt⟩)
    | mbxSend n | mbxRecv n | trap n =>
      exact .inr (.inr ⟨by simp [opcode], (selector_nibble_toNat n).trans_lt n.isLt⟩)
  · rintro (⟨rfl | rfl | rfl, rfl⟩ | ⟨rfl, h⟩ | ⟨rfl | rfl | rfl, h⟩)
    · exact ⟨.vecInit, rfl, rfl⟩
    · exact ⟨.tmrInit, rfl, rfl⟩
    · exact ⟨.irqUnmask, rfl, rfl⟩
    · exact ⟨.icgEnable (BitVec.ofNatLT sel h), rfl, rfl⟩
    · exact ⟨.mbxSend (BitVec.ofNatLT sel h), rfl, (selector_nibble_toNat (BitVec.ofNatLT sel h)).symm⟩
    · exact ⟨.mbxRecv (BitVec.ofNatLT sel h), rfl, (selector_nibble_toNat (BitVec.ofNatLT sel h)).symm⟩
    · exact ⟨.trap (BitVec.ofNatLT sel h), rfl, (selector_nibble_toNat (BitVec.ofNatLT sel h)).symm⟩

/-- The decoder is total: what it does not read as an operation it rejects by name. -/
theorem exists_illegal_iff_not_legal {w : Word} : (∃ why, decode w = .illegal why) ↔ ¬∃ i, decode w = .legal i := by
  cases decode w <;> simp

/-- A word is illegal when it breaks one of the clauses (a) to (d) of R107. -/
theorem exists_illegal_iff (w : Word) :
    (∃ why, decode w = .illegal why) ↔
      (w.toNat / 2 ^ 28 = 0 ∨ 8 ≤ w.toNat / 2 ^ 28) ∨ w.toNat % 2 ^ 23 ≠ 0 ∨
        ((w.toNat / 2 ^ 28 = 1 ∨ w.toNat / 2 ^ 28 = 2 ∨ w.toNat / 2 ^ 28 = 4) ∧ w.toNat / 2 ^ 23 % 2 ^ 5 ≠ 0) ∨
        ((w.toNat / 2 ^ 28 = 5 ∨ w.toNat / 2 ^ 28 = 6 ∨ w.toNat / 2 ^ 28 = 7) ∧ 16 ≤ w.toNat / 2 ^ 23 % 2 ^ 5) := by
  have hsel : w.toNat / 2 ^ 23 % 2 ^ 5 < 32 := Nat.mod_lt _ (by decide)
  simp only [exists_illegal_iff_not_legal, decode_eq_legal_iff_toNat, ← and_assoc, exists_and_right,
    exists_opcode_selector_iff]
  omega

/-- All bit vectors of a width. -/
def allBitVecs (n : Nat) : List (BitVec n) := (List.finRange (2 ^ n)).map BitVec.ofFin

theorem mem_allBitVecs {n : Nat} (x : BitVec n) : x ∈ allBitVecs n :=
  List.mem_map.2 ⟨x.toFin, List.mem_finRange _, rfl⟩

theorem nodup_allBitVecs (n : Nat) : (allBitVecs n).Nodup :=
  (List.nodup_finRange _).map fun _ _ h => congrArg BitVec.toFin h

theorem length_allBitVecs (n : Nat) : (allBitVecs n).length = 2 ^ n := by simp [allBitVecs]

/-- Every operation, at every value of its operand. -/
def allInstrs : List Instr :=
  [[.vecInit, .tmrInit, .irqUnmask], (allBitVecs 5).map Instr.icgEnable, (allBitVecs 4).map Instr.mbxSend,
    (allBitVecs 4).map Instr.mbxRecv, (allBitVecs 4).map Instr.trap].flatten

theorem mem_allInstrs (i : Instr) : i ∈ allInstrs := by
  cases i <;> simp [allInstrs, mem_allBitVecs]

theorem nodup_allInstrs : allInstrs.Nodup := by
  have hmap {n : Nat} {f : BitVec n → Instr} (hf : f.Injective) : ((allBitVecs n).map f).Nodup :=
    (nodup_allBitVecs n).map hf
  have hline := hmap fun _ _ => Instr.icgEnable.inj
  have hsend := hmap fun _ _ => Instr.mbxSend.inj
  have hrecv := hmap fun _ _ => Instr.mbxRecv.inj
  have htrap := hmap fun _ _ => Instr.trap.inj
  simp [allInstrs, List.nodup_append, hline, hsend, hrecv, htrap, or_imp, forall_and]

theorem length_allInstrs : allInstrs.length = 3 + 32 + 3 * 16 := by
  simp [allInstrs, length_allBitVecs]

/-- Two operations never share a command word. -/
theorem encode_injective : encode.Injective := fun i j h =>
  Decoded.legal.inj (((decodeExactlyEncode _ i).2 rfl).symm.trans ((decodeExactlyEncode _ j).2 h))

/-- Settles O3: the legal words are the command words of all operations. -/
theorem illegalWordsAreListed : Obligations.IllegalWordsAreListed := by
  refine ⟨fun w => exists_illegal_iff w, allInstrs.map encode, ?_, ?_, fun w => ?_⟩
  · exact List.Nodup.map encode_injective nodup_allInstrs
  · rw [List.length_map, length_allInstrs]
  · simp only [List.mem_map, mem_allInstrs, true_and, decodeExactlyEncode w, eq_comm]

/-! ### The rows of the opcode table (R104) -/

/-- The bits of `SEL` that are 0 in every word of the operation's row. -/
def selectorMask : Instr → BitVec 5
  | .vecInit | .tmrInit | .irqUnmask => 0x1F#5
  | .icgEnable _ => 0#5
  | .mbxSend _ | .mbxRecv _ | .trap _ => 0x10#5

/-- The mask that keeps `OP`, `ZERO` and the given bits of `SEL`. -/
def rowMask (selMask : BitVec 5) : Word := BitVec.allOnes 4 ++ selMask ++ BitVec.allOnes 23

/-- The row of an operation, put together from its fields. -/
def rowOf (i : Instr) : OpcodeRow := ⟨mnemonic i, commandWord (opcode i) 0#5, rowMask (selectorMask i)⟩

theorem opcodeTable_eq_map_rowOf : opcodeTable =
    [.vecInit, .tmrInit, .icgEnable 0, .irqUnmask, .mbxSend 0, .mbxRecv 0, .trap 0].map rowOf := rfl

/-- The table holds the rows of the operations in the order of their opcodes. -/
theorem opcodeTable_getElem?_opcode (i : Instr) : opcodeTable[(opcode i).toNat - 1]? = some (rowOf i) := by
  rw [opcodeTable_eq_map_rowOf]
  cases i <;> rfl

theorem mem_opcodeTable_iff {row : OpcodeRow} : row ∈ opcodeTable ↔ ∃ i, rowOf i = row := by
  constructor
  · intro h
    rw [opcodeTable_eq_map_rowOf] at h
    obtain ⟨i, -, hi⟩ := List.mem_map.1 h
    exact ⟨i, hi⟩
  · rintro ⟨i, rfl⟩
    exact List.mem_of_getElem? (opcodeTable_getElem?_opcode i)

/-- Operations of one opcode have one row. -/
theorem rowOf_eq_of_opcode_eq {i j : Instr} (h : opcode i = opcode j) : rowOf i = rowOf j :=
  Option.some.inj (by rw [← opcodeTable_getElem?_opcode i, h, opcodeTable_getElem?_opcode])

/-- The fields of a masked word. -/
theorem fields_and_rowMask (w : Word) (m : BitVec 5) :
    opField (w &&& rowMask m) = opField w ∧ selField (w &&& rowMask m) = selField w &&& m ∧
      zeroField (w &&& rowMask m) = zeroField w := by
  have hmask : opField (rowMask m) = BitVec.allOnes 4 ∧ selField (rowMask m) = m ∧
      zeroField (rowMask m) = BitVec.allOnes 23 := by
    revert m
    decide
  obtain ⟨hop, hsel, hzero⟩ := hmask
  simp only [opField, selField, zeroField, BitVec.extractLsb'_and] at *
  simp only [hop, hsel, hzero, BitVec.and_allOnes, and_self]

/-- The masked bits of `SEL` are 0 in the selectors of the row's operations and in no others (R105). -/
theorem and_selectorMask_eq_zero_iff {sel : BitVec 5} {i : Instr} :
    sel &&& selectorMask i = 0#5 ↔ ∃ j, opcode i = opcode j ∧ sel = selector j := by
  simp only [← BitVec.toNat_inj (n := 4), ← BitVec.toNat_inj (x := sel) (y := selector _),
    exists_opcode_selector_iff]
  cases i
  all_goals
    simp only [opcode, selectorMask]
    revert sel
    decide

/-- A row selects the words of the operations of its opcode. -/
theorem and_mask_rowOf_iff {w : Word} {i : Instr} :
    w &&& (rowOf i).mask = (rowOf i).pattern ↔ ∃ j, decode w = .legal j ∧ opcode j = opcode i := by
  obtain ⟨hop, hsel, hzero⟩ := fields_and_rowMask w (selectorMask i)
  simp only [rowOf, eq_commandWord_iff, hop, hsel, hzero, and_selectorMask_eq_zero_iff, decode_eq_legal_iff]
  constructor
  · rintro ⟨hw, ⟨j, hj, hs⟩, hz⟩
    exact ⟨j, ⟨hw.trans hj, hs, hz⟩, hj.symm⟩
  · rintro ⟨j, ⟨hw, hs, hz⟩, hj⟩
    exact ⟨hw.trans hj, ⟨j, hj.symm, hs⟩, hz⟩

/-- Settles O4: each row of the table is that of an operation, which selects the words of its own opcode. -/
theorem matchMaskSelectsOperation : Obligations.MatchMaskSelectsOperation := by
  refine ⟨fun w name => ?_, fun w row hrow row' hrow' h h' => ?_, rfl⟩
  · constructor
    · rintro ⟨i, hi, rfl⟩
      exact ⟨rowOf i, mem_opcodeTable_iff.2 ⟨i, rfl⟩, rfl, and_mask_rowOf_iff.2 ⟨i, hi, rfl⟩⟩
    · rintro ⟨row, hrow, rfl, h⟩
      obtain ⟨i, rfl⟩ := mem_opcodeTable_iff.1 hrow
      obtain ⟨j, hj, hop⟩ := and_mask_rowOf_iff.1 h
      exact ⟨j, hj, congrArg OpcodeRow.mnemonic (rowOf_eq_of_opcode_eq hop)⟩
  · obtain ⟨i, rfl⟩ := mem_opcodeTable_iff.1 hrow
    obtain ⟨i', rfl⟩ := mem_opcodeTable_iff.1 hrow'
    obtain ⟨j, hj, hop⟩ := and_mask_rowOf_iff.1 h
    obtain ⟨j', hj', hop'⟩ := and_mask_rowOf_iff.1 h'
    obtain rfl : j = j' := Decoded.legal.inj (hj.symm.trans hj')
    exact rowOf_eq_of_opcode_eq (hop.symm.trans hop')

end Sys2Proof
end

section
/-!
PROOFS. The assembler (30_encoding.md R116 to R118): the writes of an operation statement, and what the other
statements stand for.
-/

namespace Sys2Proof.Machine

/-! ### Accepted and refused statements -/

section Wf

variable {c a b : Nat}

theorem wf_icgEnable_iff : (Stmt.icgEnable c).wf = true ↔ c < 32 := decide_eq_true_iff

theorem wf_mbxSend_iff : (Stmt.mbxSend c a).wf = true ↔ c < 16 ∧ a < 2 ^ 32 := by
  simp [Stmt.wf, nibbleOk, fitsWord]

/-- A receive is held to the ranges of a send. -/
theorem wf_mbxRecv_iff : (Stmt.mbxRecv c a).wf = true ↔ c < 16 ∧ a < 2 ^ 32 := wf_mbxSend_iff

theorem wf_trap_iff : (Stmt.trap c a b).wf = true ↔ c < 16 ∧ a < 2 ^ 32 ∧ b < 2 ^ 32 := by
  simp [Stmt.wf, nibbleOk, fitsWord, and_assoc]

theorem wf_mbxCall_iff :
    (Stmt.mbxCall c a b).wf = true ↔ (Stmt.mbxSend c a).wf = true ∧ (Stmt.mbxRecv c b).wf = true := by
  rw [wf_mbxSend_iff, wf_mbxRecv_iff]
  simp only [Stmt.wf, nibbleOk, fitsWord, Bool.and_eq_true, decide_eq_true_eq]
  omega

theorem wf_regWrite_iff : (Stmt.regWrite a b).wf = true ↔ a < 2 ^ 32 ∧ b < 2 ^ 32 := by
  simp [Stmt.wf, fitsWord]

end Wf

theorem assemble_of_wf {p : Params} {st : Stmt} (h : st.wf = true) :
    assemble p st = some ((Stmt.expand p st).flatMap (Stmt.accesses p)) := if_pos h

theorem assemble_refused {p : Params} {st : Stmt} (h : ¬st.wf = true) : assemble p st = none := if_neg h

theorem assemble_eq_some_iff {p : Params} {st : Stmt} {l : List Access} :
    assemble p st = some l ↔ st.wf = true ∧ (Stmt.expand p st).flatMap (Stmt.accesses p) = l := by
  simp [assemble]

/-! ### The writes of an operation statement (R116) -/

/-- An accepted operation statement writes its operands and then launches its operation. -/
theorem assemble_operation {p : Params} {st : Stmt} {i : Instr} {operands : List (Reg × Nat)} (h : st.wf = true)
    (ho : Stmt.operation st = some (i, operands)) : assemble p st = some (launchWrites p i operands) := by
  rw [assemble_of_wf h]
  cases st <;> cases ho <;> exact congrArg some (List.append_nil _)

/-- The command word of an operation as a number: opcode at bit 28, selector at bit 23 (R102). -/
theorem encode_eq_ofNat (i : Instr) :
    encode i = BitVec.ofNat 32 ((opcode i).toNat * 2 ^ 28 + (selector i).toNat * 2 ^ 23) := by
  rw [encode, ← commandWord_toNat, BitVec.ofNat_toNat, BitVec.setWidth_eq]

/-- The launch in numbers: `OP_CMD` at offset 0x2C takes the command word last (R116, 20_memory.md R70). -/
theorem assemble_launch {p : Params} {st : Stmt} {i : Instr} {operands : List (Reg × Nat)} {base sel : Nat}
    (op : BitVec 4) (h : st.wf = true) (ho : Stmt.operation st = some (i, operands)) (hop : opcode i = op)
    (hbase : op.toNat * 2 ^ 28 = base) (hsel : (selector i).toNat = sel) :
    assemble p st = some (operands.map (fun x => writeTo p x.1 (BitVec.ofNat 32 x.2)) ++
      [.write (p.blockBase + 0x2C) .word (BitVec.ofNat 32 (base + sel * 2 ^ 23))]) := by
  rw [assemble_operation h ho, launchWrites, encode_eq_ofNat, hop, hbase, hsel]
  rfl

/-- A channel or tag as written is the selector the command word carries (R105). -/
theorem selector_nibble_ofNat_toNat {c : Nat} (h : c < 16) : ((BitVec.ofNat 4 c).setWidth 5).toNat = c :=
  (selector_nibble_toNat _).trans (Nat.mod_eq_of_lt h)

/-- Settles O6: the writes are those of the launch of each statement's operation, and a refusal is an operand out of
the range `Stmt.wf` holds it to. -/
theorem assemblerWrites : Obligations.AssemblerWrites := by
  intro p a b c ha hb at'
  refine ⟨rfl, rfl, rfl, fun hc => ?_, fun hc => ?_, fun hc => ?_, fun hc => ?_, fun hc => ?_,
    fun hc => ⟨?_, ?_, ?_⟩, fun hc => ⟨?_, ?_, ?_, ?_⟩⟩
  · exact assemble_launch 3#4 (wf_icgEnable_iff.2 hc) rfl rfl rfl (Nat.mod_eq_of_lt hc)
  · exact assemble_launch 5#4 (wf_mbxSend_iff.2 ⟨hc, ha⟩) rfl rfl rfl (selector_nibble_ofNat_toNat hc)
  · exact assemble_launch 6#4 (wf_mbxRecv_iff.2 ⟨hc, ha⟩) rfl rfl rfl (selector_nibble_ofNat_toNat hc)
  · exact assemble_launch 7#4 (wf_trap_iff.2 ⟨hc, ha, hb⟩) rfl rfl rfl (selector_nibble_ofNat_toNat hc)
  · exact assemble_refused fun h => hc.not_gt (wf_icgEnable_iff.1 h)
  · exact assemble_refused fun h => hc.not_gt (wf_mbxSend_iff.1 h).1
  · exact assemble_refused fun h => hc.not_gt (wf_mbxRecv_iff.1 h).1
  · exact assemble_refused fun h => hc.not_gt (wf_trap_iff.1 h).1
  · exact assemble_refused fun h => hc.not_gt (wf_mbxSend_iff.1 h).2
  · exact assemble_refused fun h => hc.not_gt (wf_mbxRecv_iff.1 h).2
  · exact assemble_refused fun h => hc.not_gt (wf_trap_iff.1 h).2.1
  · exact assemble_refused fun h => hc.not_gt (wf_trap_iff.1 h).2.2

/-! ### Pseudo-instructions, bus statements and environment statements (R117, R118) -/

theorem assemble_irqEnableTimer (p : Params) :
    assemble p .irqEnableTimer = assemble p (.icgEnable p.timerLine.toNat) := by
  rw [assemble_of_wf (wf_icgEnable_iff.2 p.timerLine.isLt)]
  rfl

theorem assemble_boot {p : Params} {v t e u : List Access} (hv : assemble p .vecInit = some v)
    (ht : assemble p .tmrInit = some t) (he : assemble p .irqEnableTimer = some e)
    (hu : assemble p .irqUnmask = some u) : assemble p .boot = some (v ++ t ++ e ++ u) := by
  cases hv; cases ht; cases he; cases hu
  rfl

theorem assemble_mbxCall {p : Params} {c a b : Nat} {x y : List Access} (hx : assemble p (.mbxSend c a) = some x)
    (hy : assemble p (.mbxRecv c b) = some y) : assemble p (.mbxCall c a b) = some (x ++ y) := by
  obtain ⟨hwx, rfl⟩ := assemble_eq_some_iff.1 hx
  obtain ⟨hwy, rfl⟩ := assemble_eq_some_iff.1 hy
  rw [assemble_of_wf (wf_mbxCall_iff.2 ⟨hwx, hwy⟩)]
  rfl

/-- Settles O7: the expansion of each pseudo-instruction, and the statements that are their own expansion. -/
theorem pseudoInstructionsExpand : Obligations.PseudoInstructionsExpand := by
  intro p a b c
  refine ⟨assemble_irqEnableTimer p, fun v t e u => assemble_boot, fun x y => assemble_mbxCall,
    fun ha hb => ⟨?_, ?_⟩, ⟨rfl, rfl, rfl⟩, fun ha => ⟨?_, ?_⟩, fun hc ha hb => ?_, rfl, rfl, rfl, rfl, rfl, rfl⟩
  · exact assemble_of_wf (wf_regWrite_iff.2 ⟨ha, hb⟩)
  · exact assemble_of_wf (decide_eq_true ha)
  · exact assemble_of_wf (decide_eq_true ha)
  · exact assemble_of_wf (decide_eq_true ha)
  · exact assemble_of_wf (wf_trap_iff.2 ⟨hc, ha, hb⟩)

end Sys2Proof.Machine
end

section
/-!
PROOFS. The text of a report record and the labels of the vector tags (30_encoding.md R110 to R113).
-/

namespace Sys2Proof.Machine

/-! ### Labels (R110, R111) -/

/-- A label names its tag: reading the table backwards finds the tag the label is of. -/
theorem tagOfLabel_vectorLabel (tag : Tag) : tagOfLabel (vectorLabel tag) = some tag := by
  revert tag
  decide

/-- Settles O9: the table evaluated, and its left inverse. -/
theorem vectorLabelsIdentifyTags : Obligations.VectorLabelsIdentifyTags := by
  refine ⟨by decide, fun a b h => Option.some.inj ?_⟩
  rw [← tagOfLabel_vectorLabel a, h, tagOfLabel_vectorLabel]

/-! ### Lines (R113) -/

theorem text_fatal (tag : Tag) (syn far : Word) : Report.text { kind := 1, tag := tag, v0 := syn, v1 := far } =
    some (vectorLabel tag ++ " SYN=0x" ++ hex8 syn ++ " ADDR=0x" ++ hex8 far) := rfl

theorem text_unrecognized (tag : Tag) (v0 v1 : Word) :
    Report.text { kind := 2, tag := tag, v0 := v0, v1 := v1 } =
      some ("UNRECOGNIZED_IRQ PENDING=0x" ++ hex8 v0) := rfl

/-- The kinds with a line are the two that are emitted (R112). -/
theorem text_eq_none_iff (rec : Report) : Report.text rec = none ↔ rec.kind ≠ 1 ∧ rec.kind ≠ 2 := by
  have h1 : rec.kind = 1 ↔ rec.kind.toNat = 1 := BitVec.toNat_inj.symm
  have h2 : rec.kind = 2 ↔ rec.kind.toNat = 2 := BitVec.toNat_inj.symm
  rw [ne_eq, ne_eq, h1, h2]
  unfold Report.text
  split <;> simp_all

/-- Settles O8: the lines of the two kinds, the two examples among them. -/
theorem reportTextLines : Obligations.ReportTextLines :=
  ⟨by decide, by decide, text_fatal, text_unrecognized, text_eq_none_iff⟩

end Sys2Proof.Machine
end

section
/-!
PROOFS. The mailbox operations (40_mailbox.md) and the frame of every operation: the micro-steps of `MBX.SEND` and
`MBX.RECV` exactly, what a completed receive answers, the wait of a send on a full `OUT`, and the bound of a receive,
whose measure is `recvFuel`.
-/

namespace Sys2Proof.Machine

/-! ### Micro-steps of the operation in flight -/

theorem InFlight.exec_eq {i : Instr} {s : State} {r : FgRecord} (h : InFlight i s r) :
    exec i s = microBody i s r := by
  rw [exec_eq_microStep, microStep_busy i _ s r h.mayStep h.busy h.op]

section Send

variable {ch : Channel} {s : State} {r : FgRecord}

theorem sendStep_s1 (hs : r.step = .s1) :
    sendStep ch s r = .next { s with
      fg := .busy { r with t := s.mbxStatus, step := if s.mbxStatus.getLsbD 31 then .s1 else .s2 } } := by
  simp only [sendStep, hs]
  rfl

theorem sendStep_s2 (hs : r.step = .s2) :
    sendStep ch s r = .next ((regWrite .mbxData (taggedWord ch r.a0) s).finish 0) := by
  simp only [sendStep, hs]

end Send

/-- The poll of a send goes on exactly while `OUT` is full (40_mailbox.md R141). -/
theorem sendPoll_label (s : State) :
    (if s.mbxStatus.getLsbD 31 then FgLabel.s1 else .s2) = if s.out.length = s.par.mbxDepth then .s1 else .s2 := by
  simp only [mbxStatus_outFull, decide_eq_true_eq]

/-- Settles O16: the poll's test is `OUT_FULL`, and the write is that of `MBX_DATA`, with room and without. -/
theorem mbxSendMicroSteps : Obligations.MbxSendMicroSteps := by
  refine ⟨fun s r ch h hs => ?_, fun s r ch h hs hl => ?_, fun s r ch h hs hl => ?_⟩
  · rw [← sendPoll_label]
    exact h.exec_eq.trans (sendStep_s1 hs)
  · obtain ⟨-, -, hpush, -⟩ := mailboxDataPort s (taggedWord ch r.a0)
    exact h.exec_eq.trans ((sendStep_s2 hs).trans (by rw [hpush hl]; rfl))
  · obtain ⟨-, -, -, hdrop⟩ := mailboxDataPort s (taggedWord ch r.a0)
    exact h.exec_eq.trans ((sendStep_s2 hs).trans (by rw [hdrop hl]; rfl))

section Recv

variable {ch : Channel} {s : State} {r : FgRecord}

theorem recvStep_s1 (hs : r.step = .s1) : recvStep ch s r = .next (recvPoll s r) := by
  simp only [recvStep, hs]

theorem recvStep_s2 (hs : r.step = .s2) : recvStep ch s r = .next (recvTake ch s r) := by
  simp only [recvStep, hs]

/-- `S2` in one lemma for a popped and a free word: a word of the awaited channel completes the receive, a word of
another is lost (40_mailbox.md R143, R144). -/
theorem InFlight.recv_s2 {w : Word} {u : State} (h : InFlight (.mbxRecv ch) s r) (hs : r.step = .s2)
    (hr : regRead .mbxData s = (w, u)) :
    (channelOf w = ch → exec (.mbxRecv ch) s = .next (({ u with result := payloadOf w } : State).finish 0)) ∧
      (channelOf w ≠ ch → exec (.mbxRecv ch) s = .next (u.goto { r with t := w } .s1)) := by
  rw [h.exec_eq, microBody, recvStep_s2 hs]
  obtain ⟨hc, he⟩ | ⟨hc, he⟩ := recvTake_cases ch s r w u hr
  · exact ⟨fun _ => congrArg _ he, fun hne => absurd hc hne⟩
  · exact ⟨fun heq => absurd heq hc, fun _ => congrArg _ he⟩

end Recv

/-- The status word is zero exactly when `IN` is empty and `OUT` is not full (10_state.md R27). -/
theorem mbxStatus_eq_zero_iff (s : State) : s.mbxStatus = 0 ↔ s.inb = [] ∧ s.out.length ≠ s.par.mbxDepth :=
  (mailboxStatusBits s).2

/-- Settles O18: the bound test and the poll of `S1`; the word `S2` reads, popped or free, kept or lost. -/
theorem mbxRecvMicroSteps : Obligations.MbxRecvMicroSteps := by
  refine ⟨fun s r ch h hs hn => ?_, fun s r ch h hs hn => ?_, fun s r ch w rest h hs hb => ?_,
    fun s r ch h hs hb w hw => ?_⟩
  · have hp : recvPoll s r = ({ s with result := recvSentinel } : State).finish 2 := if_pos hn
    exact h.exec_eq.trans ((recvStep_s1 hs).trans (congrArg _ hp))
  · have hp : recvPoll s r =
        s.goto { r with n := r.n + 1, t := s.mbxStatus } (if s.mbxStatus = 0 then .s1 else .s2) := if_neg hn
    rw [if_congr (mbxStatus_eq_zero_iff s) rfl rfl] at hp
    exact h.exec_eq.trans ((recvStep_s1 hs).trans (congrArg _ hp))
  · obtain ⟨hpop, -⟩ := mailboxDataPort s w
    exact h.recv_s2 hs (hpop w rest hb)
  · obtain ⟨-, hdraw, -⟩ := mailboxDataPort s w
    rw [hw]
    exact h.recv_s2 hs (hdraw hb)

/-! ### The outcome and the measure of a receive -/

/-- The state a receive ends in: the sentinel with code 2, or a payload with code 0 (40_mailbox.md R143). -/
def RecvDone (t : State) : Prop :=
  t.fg = .idle ∧ (t.err = 2 ∧ t.result = 0xFFFFFFFF#32 ∨ t.err = 0 ∧ t.result.extractLsb' 0 4 = 0#4)

/-- The channel bits of a payload are zero (30_encoding.md R114). -/
theorem extractLsb'_payloadOf (w : Word) : (payloadOf w).extractLsb' 0 4 = 0#4 := by
  have hmask : (0xFFFFFFF0#32).extractLsb' 0 4 = 0#4 := by decide
  rw [payloadOf, BitVec.extractLsb'_and, hmask, BitVec.and_zero]

theorem recvFuel_pos (r : FgRecord) : 0 < recvFuel r := by
  unfold recvFuel
  split <;> omega

/-- A poll below the bound uses up one of the polls left, whichever label it goes to. -/
theorem recvFuel_poll {r : FgRecord} (hs : r.step = .s1) (hn : r.n ≠ r.a0) (t : Word) (l : FgLabel) :
    recvFuel { r with n := r.n + 1, t := t, step := l } < recvFuel r := by
  have hd : (r.a0 - (r.n + 1)).toNat + 1 = (r.a0 - r.n).toNat := by bv_omega
  have hlabel : (if l = .s2 then 2 else 1) ≤ 2 := by split <;> decide
  simp only [recvFuel, hs, reduceCtorEq, if_false]
  omega

theorem recvFuel_lose {r : FgRecord} (hs : r.step = .s2) (t : Word) :
    recvFuel { r with t := t, step := .s1 } < recvFuel r := by
  simp [recvFuel, hs]

/-- A micro-step of a receive ends it or leaves it in flight with fewer micro-steps to go. -/
theorem ForegroundMove.recv_cases {s t : State} {r : FgRecord} {ch : Channel} (hv : ForegroundMove s r t)
    (hi : r.instr = .mbxRecv ch) :
    RecvDone t ∨ ∃ r', t.fg = .busy r' ∧ r'.instr = .mbxRecv ch ∧ recvFuel r' < recvFuel r := by
  cases hv with
  | recvBound _ _ hs hn => exact .inl ⟨rfl, .inl ⟨rfl, rfl⟩⟩
  | recvPoll _ _ hs hn => exact .inr ⟨_, rfl, hi, recvFuel_poll hs hn _ _⟩
  | recvKeep _ w => exact .inl ⟨rfl, .inr ⟨rfl, extractLsb'_payloadOf w⟩⟩
  | recvLose _ w _ _ hs => exact .inr ⟨_, rfl, hi, recvFuel_lose hs w⟩
  | recvKeepFree => exact .inl ⟨rfl, .inr ⟨rfl, extractLsb'_payloadOf _⟩⟩
  | recvLoseFree _ _ hs => exact .inr ⟨_, rfl, hi, recvFuel_lose hs _⟩
  | _ => simp_all

/-- A meaning that answers a next state changed nothing or made a micro-step of its own. -/
theorem exec_still_or_move {i : Instr} {s t : State} (h : exec i s = .next t) :
    (s.fgMayStep = false ∧ t = s) ∨ ∃ r, r.instr = i ∧ ForegroundMove s r t := by
  obtain hstill | ⟨r, -, hi, -, hv⟩ := exec_move h
  · exact .inl hstill
  · exact .inr ⟨r, hi, hv⟩

/-- Settles O19: the sentinel's low four bits are not zero, and a payload's are. -/
theorem recvPayloadIsNeverSentinel : Obligations.RecvPayloadIsNeverSentinel := by
  intro s t r ch h hexec hidle
  obtain ⟨hblocked, -⟩ | ⟨r', hi, hv⟩ := exec_still_or_move hexec
  · exact absurd (h.mayStep.symm.trans hblocked) (by decide)
  obtain ⟨-, ⟨herr, hres⟩ | ⟨herr, hlow⟩⟩ | ⟨r'', hbusy, -⟩ := hv.recv_cases hi
  · simp [herr, hres]
  · have hne : t.result ≠ 0xFFFFFFFF#32 := fun hres => absurd hlow (by rw [hres]; decide)
    simp [herr, hlow, hne]
  · exact absurd (hidle.symm.trans hbusy) (by simp)

/-! ### What every agent leaves to the foreground -/

/-- But for a reset, an operation in flight is moved by a micro-step of the foreground alone. -/
theorem Moved.busy_cases {s t : State} {ev : Event} {r : FgRecord} (hv : Moved s ev t) (hf : s.fg = .busy r)
    (hr : ev ≠ .reset) :
    (ev = .foreground ∧ s.fgMayStep = true ∧ ForegroundMove s r t) ∨
      (¬ (ev = .foreground ∧ s.fgMayStep = true) ∧ t.fg = .busy r) := by
  cases hv with
  | still _ hstill =>
    refine .inr ⟨fun ⟨hev, hm⟩ => ?_, hf⟩
    simpa [hf, hm] using hstill hev
  | foreground r' _ hf' hm hv' =>
    obtain rfl : r = r' := Foreground.busy.inj (hf.symm.trans hf')
    exact .inl ⟨rfl, hm, hv'⟩
  | trapContext r' _ hc hh hv' =>
    refine .inr ⟨by simp, ?_⟩
    cases hv' <;> exact hf
  | host a rest u reply hq hp hv' =>
    obtain ⟨hidle, -, -⟩ := portFree_spec hp
    exact absurd (hidle.symm.trans hf) (by simp)
  | reset => exact absurd rfl hr
  | _ => exact .inr ⟨by simp, hf⟩

/-- With `OUT` full nothing but a pop or a reset changes it (40_mailbox.md R142). -/
theorem Moved.out_eq_of_full {s t : State} {ev : Event} (hv : Moved s ev t) (hfull : s.out.length = s.par.mbxDepth)
    (hpop : ev ≠ .cpPop) (hr : ev ≠ .reset) : t.out = s.out := by
  obtain he | ⟨w, -, hroom, -⟩ | ⟨w, -, hev, -⟩ | ⟨hev, -⟩ := hv.out_cases
  · exact he
  · exact absurd hfull (Nat.ne_of_lt hroom)
  · exact absurd hev hpop
  · exact absurd hev hr

theorem ForegroundMove.fg_of_sendPoll {s t : State} {r : FgRecord} {ch : Channel} (hv : ForegroundMove s r t)
    (hi : r.instr = .mbxSend ch) (hs : r.step = .s1) :
    t.fg = .busy { r with t := s.mbxStatus, step := if s.out.length = s.par.mbxDepth then .s1 else .s2 } := by
  rw [← sendPoll_label]
  cases hv with
  | sendPoll => rfl
  | _ => simp_all

/-- Settles O17: nobody else pushes or pops a full `OUT`, and the send's own poll finds it full. -/
theorem sendWaitsForPop : Obligations.SendWaitsForPop := by
  intro s t r ch hf hi hs hfull hpop hr h
  obtain ⟨l, n, -, hv⟩ := step_moved h
  refine ⟨hv.out_eq_of_full hfull hpop hr, hv.par_eq, ?_⟩
  obtain ⟨-, -, hv'⟩ | ⟨-, hkept⟩ := hv.busy_cases hf hr
  · exact ⟨_, hv'.fg_of_sendPoll hi hs, hi, if_pos hfull, rfl⟩
  · exact ⟨r, hkept, hi, hs, rfl⟩

/-! ### The bound of a receive along a run -/

theorem isForegroundStep_iff {s : State} {r : FgRecord} (hf : s.fg = .busy r) :
    isForegroundStep s = true ↔ nextEvent s = .foreground ∧ s.fgMayStep = true := by
  simp [isForegroundStep, State.fgCanStep, hf]

theorem runSteps_succ_iff {k : Nat} {s t : State} :
    runSteps (k + 1) s = .next t ↔ ∃ u, step s = .next u ∧ runSteps k u = .next t := by
  cases h : step s <;> simp [runSteps, h]

theorem foregroundCount_succ {s u : State} (k : Nat) (h : step s = .next u) :
    foregroundCount (k + 1) s = (if isForegroundStep s then 1 else 0) + foregroundCount k u := by
  simp [foregroundCount, h]

theorem resetWithin_succ_eq_false_iff {s u : State} (k : Nat) (h : step s = .next u) :
    resetWithin (k + 1) s = false ↔ nextEvent s ≠ .reset ∧ resetWithin k u = false := by
  simp [resetWithin, h]

/-- Any step but a reset ends a receive in flight, or leaves it in flight with its fuel paid for the step if that was
the foreground's. -/
theorem step_recv_cases {s u : State} {r : FgRecord} {ch : Channel} (h : step s = .next u) (hf : s.fg = .busy r)
    (hi : r.instr = .mbxRecv ch) (hr : nextEvent s ≠ .reset) :
    RecvDone u ∨ ∃ r', u.fg = .busy r' ∧ r'.instr = .mbxRecv ch ∧
      recvFuel r' + (if isForegroundStep s then 1 else 0) ≤ recvFuel r := by
  obtain ⟨l, n, -, hv⟩ := step_moved h
  obtain ⟨hev, hm, hv'⟩ | ⟨hother, hkept⟩ := hv.busy_cases hf hr
  · obtain hdone | ⟨r', hf', hi', hlt⟩ := hv'.recv_cases hi
    · exact .inl hdone
    · refine .inr ⟨r', hf', hi', ?_⟩
      rw [if_pos ((isForegroundStep_iff hf).2 ⟨hev, hm⟩)]
      exact hlt
  · refine .inr ⟨r, hkept, hi, ?_⟩
    rw [if_neg fun hstep => hother ((isForegroundStep_iff hf).1 hstep)]
    exact le_rfl

/-- Along any run without a reset the receive has ended by the time the foreground has taken the micro-steps its fuel
counts: each of them uses up fuel, and a receive in flight has some left. -/
theorem exists_recvDone (k : Nat) {s t : State} {r : FgRecord} {ch : Channel} (hf : s.fg = .busy r)
    (hi : r.instr = .mbxRecv ch) (hr : resetWithin k s = false) (hrun : runSteps k s = .next t)
    (hfuel : recvFuel r ≤ foregroundCount k s) : ∃ j u, j ≤ k ∧ runSteps j s = .next u ∧ RecvDone u := by
  induction k generalizing s r with
  | zero => exact absurd hfuel (Nat.not_le.2 (recvFuel_pos r))
  | succ k ih =>
    obtain ⟨u, hstep, hrun⟩ := runSteps_succ_iff.1 hrun
    obtain ⟨hnr, hr⟩ := (resetWithin_succ_eq_false_iff k hstep).1 hr
    rw [foregroundCount_succ k hstep] at hfuel
    obtain hdone | ⟨r', hf', hi', hle⟩ := step_recv_cases hstep hf hi hnr
    · exact ⟨1, u, by omega, runSteps_succ_iff.2 ⟨u, hstep, rfl⟩, hdone⟩
    · obtain ⟨j, v, hj, hrun', hdone⟩ := ih hf' hi' hr hrun (by omega)
      exact ⟨j + 1, v, by omega, runSteps_succ_iff.2 ⟨u, hstep, hrun'⟩, hdone⟩

/-- Settles O20. The label needs no hypothesis: at a label it does not have a receive faults, and the run ends. -/
theorem recvCompletesWithinBound : Obligations.RecvCompletesWithinBound :=
  fun k _ _ _ _ hf hi _ hr hrun hfuel => exists_recvDone k hf hi hr hrun hfuel

/-! ### The frame of every operation -/

section Frame

variable {s t : State} {r : FgRecord}

/-- What no operation writes. -/
theorem ForegroundMove.frame (hv : ForegroundMove s r t) :
    t.par = s.par ∧ t.arg0 = s.arg0 ∧ t.arg1 = s.arg1 ∧ t.lastCmd = s.lastCmd ∧ t.inIrq = s.inIrq ∧
      t.halted = s.halted ∧ t.matchFlag = s.matchFlag ∧ t.ext = s.ext ∧ t.counter = s.counter ∧
      t.diag = s.diag ∧ t.rptInfo = s.rptInfo ∧ t.rptVal0 = s.rptVal0 ∧ t.rptVal1 = s.rptVal1 ∧
      t.rptCount = s.rptCount := by
  cases hv <;> exact ⟨rfl, rfl, rfl, rfl, rfl, rfl, rfl, rfl, rfl, rfl, rfl, rfl, rfl, rfl⟩

theorem ForegroundMove.enable_eq (hv : ForegroundMove s r t) (hi : ∀ line, r.instr ≠ .icgEnable line) :
    t.enable = s.enable := by
  cases hv with
  | icgEnable line hi' => exact absurd hi' (hi line)
  | _ => rfl

theorem ForegroundMove.timer_eq (hv : ForegroundMove s r t) (hi : r.instr ≠ .tmrInit) :
    t.compare = s.compare ∧ t.tmrArmed = s.tmrArmed ∧ t.nextDeadline = s.nextDeadline := by
  cases hv with
  | initProgram hi' => exact absurd hi' hi
  | initStore hi' => exact absurd hi' hi
  | _ => exact ⟨rfl, rfl, rfl⟩

theorem ForegroundMove.out_eq (hv : ForegroundMove s r t) (hi : ∀ ch, r.instr ≠ .mbxSend ch) : t.out = s.out := by
  cases hv with
  | sendWrite ch hi' => exact absurd hi' (hi ch)
  | _ => rfl

theorem ForegroundMove.recvPart_eq (hv : ForegroundMove s r t) (hi : ∀ ch, r.instr ≠ .mbxRecv ch) :
    t.inb = s.inb ∧ t.result = s.result ∧ t.env = s.env := by
  cases hv with
  | recvBound ch hi' => exact absurd hi' (hi ch)
  | recvKeep ch _ _ hi' => exact absurd hi' (hi ch)
  | recvLose ch _ _ hi' => exact absurd hi' (hi ch)
  | recvKeepFree ch hi' => exact absurd hi' (hi ch)
  | recvLoseFree ch hi' => exact absurd hi' (hi ch)
  | _ => exact ⟨rfl, rfl, rfl⟩

/-- Of the model's own fields an operation moves the count of drawn words alone (log entry 5). -/
theorem ForegroundMove.env_eq (hv : ForegroundMove s r t) : ∃ n, t.env = { s.env with draws := n } := by
  cases hv <;> exact ⟨_, rfl⟩

theorem ForegroundMove.tc_eq (hv : ForegroundMove s r t) (hi : ∀ tag, r.instr ≠ .trap tag) : t.tc = s.tc := by
  cases hv with
  | trap tag hi' => exact absurd hi' (hi tag)
  | _ => rfl

end Frame

/-- Settles O25: a blocked micro-step changes nothing, and each field is written by the micro-steps of its own
operation alone. -/
theorem operationFrame : Obligations.OperationFrame := by
  intro i s t h
  obtain ⟨-, rfl⟩ | ⟨r, rfl, hv⟩ := exec_still_or_move h
  · exact ⟨by simp, fun _ => rfl, fun _ => rfl, fun _ => rfl, fun _ => ⟨rfl, rfl, rfl⟩, fun _ => rfl,
      fun _ => ⟨rfl, rfl, rfl⟩, ⟨_, rfl⟩, fun _ => rfl⟩
  · exact ⟨hv.frame, fun hi => hv.armed_cases.resolve_right fun ⟨_, he⟩ => hi he,
      fun hi => hv.gie_cases.resolve_right fun ⟨_, he⟩ => hi he, hv.enable_eq, hv.timer_eq, hv.out_eq,
      hv.recvPart_eq, hv.env_eq, hv.tc_eq⟩

end Sys2Proof.Machine
end

section
/-!
PROOFS. The exception vector dispatcher (41_vector_dispatch.md): the foreground's `VEC.INIT` and `TRAP`, the trap
context's micro-steps exactly, the whole interrupt service, the trap context's frame, the stops of the machine, and
the permanence of a halt.
-/

namespace Sys2Proof.Machine

/-! ### The foreground's two operations -/

theorem vecInitStep_s1 {s : State} {r : FgRecord} (hs : r.step = .s1) :
    vecInitStep s r = .next { s with armed := true, err := 0, fg := .idle } := by
  simp only [vecInitStep, hs]
  rfl

theorem trapStart_s1 {s : State} {r : FgRecord} (tag : Tag) (hs : r.step = .s1) :
    trapStart tag s r = .next { s with tc := some (trapRecord tag r.a0 r.a1), err := 0, fg := .idle } := by
  simp only [trapStart, hs]
  rfl

/-- Settles O13: the operation in flight takes its one micro-step. -/
theorem vecInitArms : Obligations.VecInitArms :=
  fun _ _ h hs => h.exec_eq.trans (vecInitStep_s1 hs)

/-- Settles O22: the record handed over is that of a trap just presented, with the latched operands. -/
theorem trapStartsContext : Obligations.TrapStartsContext :=
  fun _ _ tag h hs => h.exec_eq.trans (trapStart_s1 tag hs)

/-! ### The trap context's turn, label by label -/

/-- `RPT_INFO` of a fatal record in numbers: kind 1 at bit 4 and the tag below it (10_state.md R44). -/
theorem info_fatalReport (tag : Tag) (syn far : Word) :
    Report.info (fatalReport tag syn far) = BitVec.ofNat 32 (16 + tag.toNat) := by
  simp only [Report.info, fatalReport]
  revert tag
  decide

theorem info_pendingReport (w : Word) : Report.info (pendingReport w) = 0x2D#32 := by
  simp only [Report.info, pendingReport]
  decide

theorem trapTurn_of_idle {s : State} (hc : s.tc = none) : trapTurn s = .next s := by
  simp only [trapTurn, hc]

/-- A halted block answers the trap context with itself, or with the unarmed halt's fault (log entry 7). -/
theorem trapTurn_of_halted {s : State} {r : TcRecord} (hc : s.tc = some r) (hh : s.halted = true) :
    trapTurn s = if s.unarmedHalt then .fault .vecNotArmed else .next s := by
  simp only [trapTurn, hc, hh, if_true]

section Running

variable {s : State} {r : TcRecord} (hc : s.tc = some r) (hh : s.halted = false)

include hc hh

theorem trapTurn_of_running : trapTurn s = .next (trapStep r s) := by
  simp [trapTurn, hc, hh]

theorem trapTurn_t0 (hs : r.step = .t0) : trapTurn s = .next (trapEntry r s) := by
  simp only [trapTurn_of_running hc hh, trapStep, hs]

/-- The entry before `VEC.INIT` (R164). -/
theorem trapTurn_t0_unarmed (hs : r.step = .t0) (ha : s.armed = false) :
    trapTurn s = .next { s with halted := true, err := 3 } := by
  obtain ⟨-, he⟩ | ⟨ha', -⟩ | ⟨ha', -⟩ := trapEntry_cases r s
  · rw [trapTurn_t0 hc hh hs, he]
    rfl
  · simp [ha] at ha'
  · simp [ha] at ha'

/-- The terminal entry (R165). -/
theorem trapTurn_t0_fatal (hs : r.step = .t0) (ha : s.armed = true) (ht : r.tag ≠ irqTag) :
    trapTurn s = .next (fatalEntry r.tag r.syn r.far s) := by
  obtain ⟨ha', -⟩ | ⟨-, -, he⟩ | ⟨-, ht', -⟩ := trapEntry_cases r s
  · simp [ha] at ha'
  · rw [trapTurn_t0 hc hh hs, he]
  · exact absurd ht' ht

/-- The IRQ entry (R166). -/
theorem trapTurn_t0_irq (hs : r.step = .t0) (ha : s.armed = true) (ht : r.tag = irqTag) :
    trapTurn s = .next { s with inIrq := true, tc := some { r with step := .t1 } } := by
  obtain ⟨ha', -⟩ | ⟨-, ht', -⟩ | ⟨-, -, he⟩ := trapEntry_cases r s
  · simp [ha] at ha'
  · exact absurd ht ht'
  · rw [trapTurn_t0 hc hh hs, he]
    rfl

/-- The route match (R167). -/
theorem trapTurn_t1 (hs : r.step = .t1) :
    trapTurn s = .next { s with
      tc := some { r with t := s.pending, step := if s.pending = timerBit s.par then .f1 else .t2 } } := by
  simp only [trapTurn_of_running hc hh, trapStep, hs, trapMatch_eq]

/-- The report of a word without a route (R168). -/
theorem trapTurn_t2 (hs : r.step = .t2) :
    trapTurn s = .next { s with
      diag := s.diag ++ [pendingReport r.t]
      rptInfo := 0x2D#32
      rptVal0 := r.t
      rptVal1 := 0
      rptCount := s.rptCount + 1
      tc := some { r with step := .t3 } } := by
  simp only [trapTurn_of_running hc hh, trapStep, hs, ← info_pendingReport r.t]
  rfl

/-- The return (R169). -/
theorem trapTurn_t3 (hs : r.step = .t3) : trapTurn s = .next { s with inIrq := false, tc := none } := by
  simp only [trapTurn_of_running hc hh, trapStep, hs]
  rfl

/-- `F1` (43_timer.md R199). -/
theorem trapTurn_f1 (hs : r.step = .f1) :
    trapTurn s = .next { s with
      nextDeadline := s.nextDeadline + s.par.interval, tc := some { r with step := .f2 } } := by
  simp only [trapTurn_of_running hc hh, trapStep, hs]
  rfl

/-- `F2` (43_timer.md R199). -/
theorem trapTurn_f2 (hs : r.step = .f2) :
    trapTurn s = .next { s with
      compare := s.nextDeadline, tmrArmed := true, tc := some { r with step := .f3 } } := by
  simp only [trapTurn_of_running hc hh, trapStep, hs]
  rfl

/-- `F3` (43_timer.md R199). -/
theorem trapTurn_f3 (hs : r.step = .f3) :
    trapTurn s = .next { s with matchFlag := false, tc := some { r with step := .t3 } } := by
  simp only [trapTurn_of_running hc hh, trapStep, hs]
  rfl

end Running

/-- Settles O28: the entry halts, and a halted block with `ERR = 3` is the unarmed halt. -/
theorem unarmedTrapHaltsSilently : Obligations.UnarmedTrapHaltsSilently :=
  fun _ _ hc hs hh ha => ⟨trapTurn_t0_unarmed hc hh hs ha, trapTurn_of_halted hc rfl⟩

/-- Settles O29: the terminal entry, with the latched `RPT_INFO` in numbers. -/
theorem terminalEntryReportsAndHalts : Obligations.TerminalEntryReportsAndHalts := by
  intro s r hc hs hh ha ht
  rw [← info_fatalReport r.tag r.syn r.far]
  exact trapTurn_t0_fatal hc hh hs ha ht

/-- Settles O30: the four labels of the dispatch; `TIMER_BIT` is `1 << TIMER_LINE` by definition. -/
theorem interruptDispatchSteps : Obligations.InterruptDispatchSteps :=
  fun _ _ hc hh => ⟨trapTurn_t0_irq hc hh, trapTurn_t1 hc hh, trapTurn_t2 hc hh, trapTurn_t3 hc hh⟩

/-! ### The whole interrupt service -/

theorem trapSteps_succ {s t : State} (k : Nat) (h : trapTurn s = .next t) :
    trapSteps (k + 1) s = trapSteps k t := by
  simp only [trapSteps, h]

section Service

variable {s : State} {r : TcRecord} (k : Nat) (hc : s.tc = some r) (hh : s.halted = false)

include hc hh

/-- `T0` and `T1`: the entry and the route match, on to the label `l`. Setting `IN_IRQ` does not change `PENDING`. -/
theorem trapSteps_dispatch (hs : r.step = .t0) (ha : s.armed = true) (ht : r.tag = irqTag) {l : TcLabel}
    (hl : (if s.pending = timerBit s.par then .f1 else .t2) = l) :
    trapSteps (k + 2) s = trapSteps k { s with
      inIrq := true, tc := some { r with t := s.pending, step := l } } := by
  subst hl
  refine (trapSteps_succ (k + 1) (trapTurn_t0_irq hc hh hs ha ht)).trans ?_
  exact trapSteps_succ k (trapTurn_t1 (r := { r with step := .t1 }) rfl hh rfl)

/-- `F1` to `F3`: the compare is programmed with the deadline just advanced. -/
theorem trapSteps_fire (hs : r.step = .f1) :
    trapSteps (k + 3) s = trapSteps k { s with
      nextDeadline := s.nextDeadline + s.par.interval
      compare := s.nextDeadline + s.par.interval
      tmrArmed := true
      matchFlag := false
      tc := some { r with step := .t3 } } := by
  refine (trapSteps_succ (k + 2) (trapTurn_f1 hc hh hs)).trans ?_
  refine Eq.trans (trapSteps_succ (k + 1) (trapTurn_f2 (r := { r with step := .f2 }) rfl hh rfl)) ?_
  exact trapSteps_succ k (trapTurn_f3 (r := { r with step := .f3 }) rfl hh rfl)

end Service

/-- Settles O32: the route match sends the timer's word through `F1` to `F3` and any other through `T2`; both return
by `T3`. -/
theorem interruptServiceRunsHandlerOnce : Obligations.InterruptServiceRunsHandlerOnce := by
  intro s r hc hs ht ha hh
  refine ⟨fun hp => ?_, fun hp => ?_⟩
  · refine (trapSteps_dispatch 4 hc hh hs ha ht (if_pos hp)).trans ?_
    refine Eq.trans (trapSteps_fire 1 (r := { r with t := s.pending, step := .f1 }) rfl hh rfl) ?_
    exact trapSteps_succ 0 (trapTurn_t3 (r := { r with t := s.pending, step := .t3 }) rfl hh rfl)
  · refine (trapSteps_dispatch 2 hc hh hs ha ht (if_neg hp)).trans ?_
    refine Eq.trans (trapSteps_succ 1 (trapTurn_t2 (r := { r with t := s.pending, step := .t2 }) rfl hh rfl)) ?_
    exact trapSteps_succ 0 (trapTurn_t3 (r := { r with t := s.pending, step := .t3 }) rfl hh rfl)

/-! ### The frame of the trap context -/

section Frame

variable {s t : State} {r : TcRecord}

/-- What no micro-step of the trap context writes. -/
theorem TrapMove.frame (hv : TrapMove s r t) :
    t.fg = s.fg ∧ t.arg0 = s.arg0 ∧ t.arg1 = s.arg1 ∧ t.result = s.result ∧ t.lastCmd = s.lastCmd ∧
      t.armed = s.armed ∧ t.gie = s.gie ∧ t.enable = s.enable ∧ t.ext = s.ext ∧ t.out = s.out ∧ t.inb = s.inb ∧
      t.counter = s.counter ∧ t.par = s.par ∧ t.env = s.env := by
  cases hv <;> exact ⟨rfl, rfl, rfl, rfl, rfl, rfl, rfl, rfl, rfl, rfl, rfl, rfl, rfl, rfl⟩

/-- `ERR` is written by the unarmed halt alone (R164). -/
theorem TrapMove.err_eq (hv : TrapMove s r t) (ha : s.armed = true) : t.err = s.err := by
  cases hv with
  | unarmed _ ha' => simp [ha] at ha'
  | _ => rfl

theorem TrapMove.compare_eq (hv : TrapMove s r t) (hs : r.step ≠ .f2) :
    t.compare = s.compare ∧ t.tmrArmed = s.tmrArmed := by
  cases hv with
  | reprogram hs' => exact absurd hs' hs
  | _ => exact ⟨rfl, rfl⟩

theorem TrapMove.matchFlag_eq (hv : TrapMove s r t) (hs : r.step ≠ .f3) : t.matchFlag = s.matchFlag := by
  cases hv with
  | acknowledge hs' => exact absurd hs' hs
  | _ => rfl

theorem TrapMove.halted_eq (hv : TrapMove s r t) (hs : r.step ≠ .t0) : t.halted = s.halted := by
  cases hv with
  | unarmed hs' => exact absurd hs' hs
  | fatal hs' => exact absurd hs' hs
  | _ => rfl

theorem TrapMove.inIrq_eq (hv : TrapMove s r t) (h0 : r.step ≠ .t0) (h3 : r.step ≠ .t3) :
    t.inIrq = s.inIrq := by
  cases hv with
  | irq hs' => exact absurd hs' h0
  | back hs' => exact absurd hs' h3
  | _ => rfl

theorem TrapMove.report_eq (hv : TrapMove s r t) (h0 : r.step ≠ .t0) (h2 : r.step ≠ .t2) :
    t.diag = s.diag ∧ t.rptInfo = s.rptInfo ∧ t.rptVal0 = s.rptVal0 ∧ t.rptVal1 = s.rptVal1 ∧
      t.rptCount = s.rptCount := by
  cases hv with
  | fatal hs' => exact absurd hs' h0
  | report hs' => exact absurd hs' h2
  | _ => exact ⟨rfl, rfl, rfl, rfl, rfl⟩

end Frame

/-- Settles O33: a turn the trap context cannot use changes nothing, and each of its micro-steps has its own writes
alone. -/
theorem trapContextFrame : Obligations.TrapContextFrame := by
  intro s t h
  obtain ⟨rfl, -⟩ | ⟨r, hc, hh, hv⟩ := trapTurn_move h
  · simp
  · obtain ⟨hfg, harg0, harg1, hresult, hcmd, harmed, hgie, henable, hext, hout, hinb, hcounter, hpar, henv⟩ := hv.frame
    refine ⟨hfg, harg0, harg1, hresult, hcmd, harmed, hgie, henable, hext, hout, hinb, hcounter, hpar, henv,
      hv.err_eq, by simp [hh], fun r' hc' => ?_⟩
    obtain rfl : r = r' := Option.some.inj (hc.symm.trans hc')
    exact ⟨fun hs => hv.nextDeadline_eq.trans (if_neg hs), hv.compare_eq, hv.matchFlag_eq, hv.halted_eq,
      hv.inIrq_eq, hv.report_eq⟩

/-! ### Where the machine stops -/

/-- Under the invariant the foreground's turn neither faults nor is refused: its operation has the label it stands
at. -/
theorem StateInv.foregroundTurn_next {s : State} (h : StateInv s) : ∃ t, foregroundTurn s = .next t := by
  cases hf : s.fg with
  | idle => exact ⟨s, by simp only [foregroundTurn, hf]⟩
  | busy r =>
    have hturn : foregroundTurn s = exec r.instr s := by simp only [foregroundTurn, hf]
    rw [hturn]
    by_cases hm : s.fgMayStep = true
    · obtain ⟨hanswers, -⟩ := operationsAnswerAtTheirLabels r.instr s r hm hf
      exact hanswers rfl (h.label r hf)
    · exact ⟨s, blockedForegroundStandsStill _ s ((fgMayStep_eq_false_iff s).1 (eq_false_of_ne_true hm))⟩

/-- The trap context's turn answers a next state or is the fault of the unarmed halt (R164; log entry 7). -/
theorem trapTurn_cases (s : State) :
    (∃ t, trapTurn s = .next t) ∨ (s.halted = true ∧ s.err = 3 ∧ trapTurn s = .fault .vecNotArmed) := by
  cases hc : s.tc with
  | none => exact .inl ⟨s, trapTurn_of_idle hc⟩
  | some r =>
    by_cases hh : s.halted = true
    · by_cases he : s.err = 3
      · exact .inr ⟨hh, he, (trapTurn_of_halted hc hh).trans (if_pos (by simp [State.unarmedHalt, hh, he]))⟩
      · exact .inl ⟨s, (trapTurn_of_halted hc hh).trans (if_neg (by simpa [State.unarmedHalt, hh] using he))⟩
    · exact .inl ⟨_, trapTurn_of_running hc (eq_false_of_ne_true hh)⟩

/-- A served access answers a next state or is refused by its admission (20_memory.md R71, R73). -/
theorem serveAccess_cases (a : Access) (s : State) :
    (∃ t, serveAccess a s = .next t) ∨
      (admission s.par a.addr a.size = .notAdmitted ∧ serveAccess a s = .refused .accessNotAdmitted) ∨
      (admission s.par a.addr a.size = .outside ∧ serveAccess a s = .refused .outsideWindow) := by
  cases hadm : admission s.par a.addr a.size with
  | notAdmitted => exact .inr (.inl ⟨rfl, serveAccess_notAdmitted hadm⟩)
  | outside => exact .inr (.inr ⟨rfl, serveAccess_outside hadm⟩)
  | admitted reg =>
    cases a with
    | read addr size => exact .inl ⟨_, serveAccess_read hadm⟩
    | write addr size w => exact .inl ⟨_, serveAccess_write w hadm⟩

/-- Why a port's turn was refused: the admission of the oldest held access, at a free port. -/
def PortRefusal (s : State) (x : Refusal) : Prop :=
  s.portFree = true ∧ ∃ a rest, s.env.hostQueue = a :: rest ∧
    ((x = .accessNotAdmitted ∧ admission s.par a.addr a.size = .notAdmitted) ∨
      (x = .outsideWindow ∧ admission s.par a.addr a.size = .outside))

/-- The port's turn answers a next state or is refused for its oldest held access. -/
theorem hostTurn_next_or_refused (s : State) :
    (∃ t, hostTurn s = .next t) ∨ ∃ x, hostTurn s = .refused x ∧ PortRefusal s x := by
  obtain hn | ⟨a, rest, hq, hp, hserve⟩ := hostTurn_cases s
  · exact .inl ⟨s, hn⟩
  · rw [hserve]
    obtain hn | ⟨hadm, hx⟩ | ⟨hadm, hx⟩ := serveAccess_cases a { s with env := { s.env with hostQueue := rest } }
    · exact .inl hn
    · exact .inr ⟨_, hx, hp, a, rest, hq, .inl ⟨rfl, hadm⟩⟩
    · exact .inr ⟨_, hx, hp, a, rest, hq, .inr ⟨rfl, hadm⟩⟩

/-- Everything an event can answer in a state of the invariant: of all the agents only the trap context faults and
only the port refuses. -/
theorem StateInv.takeEvent_cases {s : State} (h : StateInv s) (ev : Event) :
    (∃ t, takeEvent ev s = .next t) ∨
      (ev = .trapContext ∧ s.halted = true ∧ s.armed = false ∧ takeEvent ev s = .fault .vecNotArmed) ∨
      ∃ x, ev = .host ∧ takeEvent ev s = .refused x ∧ PortRefusal s x := by
  cases ev with
  | foreground => exact .inl h.foregroundTurn_next
  | trapContext =>
    obtain hn | ⟨hh, he, hfault⟩ := trapTurn_cases s
    · exact .inl hn
    · obtain ⟨-, ha⟩ := h.errUnarmed.1 he
      exact .inr (.inl ⟨rfl, hh, ha, hfault⟩)
  | host =>
    obtain hn | ⟨x, hx, hwhy⟩ := hostTurn_next_or_refused s
    · exact .inl hn
    · exact .inr (.inr ⟨x, rfl, hx, hwhy⟩)
  | _ => exact .inl ⟨_, rfl⟩

/-- Taking the turn off the schedule keeps the invariant. -/
theorem takeTurn_inv {s : State} (h : StateInv s) : StateInv (takeTurn s) := by
  obtain ⟨l, n, he⟩ := takeTurn_eq s
  rw [he]
  exact { h with }

theorem portRefusal_takeTurn {s : State} {x : Refusal} : PortRefusal (takeTurn s) x ↔ PortRefusal s x := by
  simp only [PortRefusal, takeTurn_portFree, takeTurn_hostQueue, takeTurn_par]

/-- Settles O54: what an event answers in a state of the invariant, read in the state before its turn is taken. -/
theorem stopsOnlyAsRuled : Obligations.StopsOnlyAsRuled := by
  intro s h
  unfold step
  have hcases := (takeTurn_inv h).takeEvent_cases (nextEvent s)
  rw [takeTurn_halted, takeTurn_armed] at hcases
  obtain ⟨t, ht⟩ | ⟨hev, hh, ha, hfault⟩ | ⟨x, hev, hrefused, hwhy⟩ := hcases
  · simp [ht]
  · rw [hfault]
    refine ⟨fun f hf => ?_, fun x hx => nomatch hx⟩
    cases hf
    exact ⟨rfl, hev, hh, ha⟩
  · rw [hrefused]
    refine ⟨fun f hf => (nomatch hf), fun y hy => ?_⟩
    cases hy
    exact ⟨hev, portRefusal_takeTurn.1 hwhy⟩

/-! ### A halted block -/

/-- No context and no port moves a halted block: but for a reset, an event changes at most the FIFOs, the external
lines, the counter with its match, and the environment, where the port's last answer stays (R165; 60_exceptions.md
R235; 20_memory.md R98). -/
theorem Moved.of_halted {s t : State} {ev : Event} (hv : Moved s ev t) (hh : s.halted = true) (hr : ev ≠ .reset) :
    t = { s with
        out := t.out, inb := t.inb, ext := t.ext, counter := t.counter, matchFlag := t.matchFlag
        tmrArmed := t.tmrArmed, env := t.env } ∧
      t.env.hostReply = s.env.hostReply := by
  cases hv with
  | foreground r _ hf hm =>
    obtain ⟨-, hrun⟩ := (fgMayStep_iff s).1 hm
    simp [hh] at hrun
  | trapContext r _ hc hrun => simp [hh] at hrun
  | host a rest u reply hq hp =>
    obtain ⟨-, -, hrun⟩ := portFree_spec hp
    simp [hh] at hrun
  | accept ha =>
    obtain ⟨-, -, -, hrun⟩ := irqAcceptable_spec ha
    simp [hh] at hrun
  | present tag syn far ht hrun => simp [hh] at hrun
  | presentIrq syn far ha =>
    obtain ⟨-, -, -, hrun⟩ := irqAcceptable_spec ha
    simp [hh] at hrun
  | reset => exact absurd rfl hr
  | _ => exact ⟨rfl, rfl⟩

/-- Settles O56: none of the fields of the claim is among those an event can move in a halted block. -/
theorem haltIsForGood : Obligations.HaltIsForGood := by
  intro s t hh h hr
  obtain ⟨l, n, -, hv⟩ := step_moved h
  obtain ⟨he, hreply⟩ := hv.of_halted hh hr
  rw [he]
  exact ⟨hh, rfl, rfl, rfl, rfl, rfl, rfl, rfl, rfl, rfl, rfl, rfl, rfl, rfl, rfl, rfl, rfl, rfl, rfl, hreply⟩

end Sys2Proof.Machine
end

section
/-!
PROOFS. The interrupt controller gate (42_irq_gate.md): `ICG.ENABLE` and `IRQ.UNMASK` exactly, and what enabling a line
does to `PENDING`.
-/

namespace Sys2Proof.Machine

section Steps

variable {s : State} {r : FgRecord}

theorem enableStep_s1 (line : Line) (hs : r.step = .s1) :
    enableStep line s r = .next { s with enable := s.enable ||| lineMask line, err := 0, fg := .idle } := by
  simp only [enableStep, hs]
  rfl

theorem unmaskStep_s1 (hs : r.step = .s1) :
    unmaskStep s r = .next { s with gie := true, err := 0, fg := .idle } := by
  simp only [unmaskStep, hs]
  rfl

end Steps

/-- Or-ing a line's mask into a word sets the line's own bit and keeps the others (30_encoding.md R115). -/
theorem or_lineMask_getLsbD (w : Word) (line : Line) {k : Nat} (hk : k < 32) :
    (w ||| lineMask line).getLsbD k = (w.getLsbD k || decide (k = line.toNat)) := by
  rw [BitVec.getLsbD_or, lineMask_getLsbD line hk]

/-- Where `RAW` stays and `ENABLE` gains one line, that line shows in `PENDING` and the other bits stay
(42_irq_gate.md R181). -/
theorem pending_getLsbD_of_enabled {s t : State} {line : Line} (hraw : t.raw = s.raw)
    (hen : t.enable = s.enable ||| lineMask line) {k : Nat} (hk : k < 32) :
    t.pending.getLsbD k = if k = line.toNat then s.raw.getLsbD k else s.pending.getLsbD k := by
  rw [State.pending, State.pending, BitVec.getLsbD_and, BitVec.getLsbD_and, hraw, hen, or_lineMask_getLsbD _ _ hk]
  by_cases hline : k = line.toNat
  · simp only [hline, decide_true, Bool.or_true, Bool.and_true, if_true]
  · simp only [hline, decide_false, Bool.or_false, if_false]

/-- Settles O14: the micro-step ors the line's mask in, and `RAW` does not depend on what it writes. -/
theorem icgEnableSetsOneLine : Obligations.IcgEnableSetsOneLine := by
  intro s r line h hs
  refine ⟨_, h.exec_eq.trans (enableStep_s1 line hs), rfl, fun k hk => or_lineMask_getLsbD s.enable line hk, ?_⟩
  intro k hk
  refine pending_getLsbD_of_enabled ?_ ?_ hk <;> rfl

/-- Settles O15: the operation in flight takes its one micro-step. -/
theorem irqUnmaskSetsGie : Obligations.IrqUnmaskSetsGie :=
  fun _ _ h hs => h.exec_eq.trans (unmaskStep_s1 hs)

end Sys2Proof.Machine
end

section
/-!
PROOFS. The timer (43_timer.md): the deadline along any run, the tick and its match, the free-running counter, and the
micro-steps of `TMR.INIT` and `TMR.FIRE`.
-/

namespace Sys2Proof.Machine

/-! ### The deadline along a run -/

theorem fireCount_succ {s u : State} (k : Nat) (h : step s = .next u) :
    fireCount (k + 1) s = (if isFire s then 1 else 0) + fireCount k u := by
  simp [fireCount, h]

theorem rebased_succ_eq_false_iff {s u : State} (k : Nat) (h : step s = .next u) :
    rebased (k + 1) s = false ↔ isRebase s = false ∧ rebased k u = false := by
  simp [rebased, h]

/-- A step that gives the deadline no new base moves it by one interval if it is `F1` and not at all otherwise. -/
theorem step_nextDeadline {s u : State} (h : step s = .next u) (hb : isRebase s = false) :
    u.nextDeadline = s.nextDeadline + BitVec.ofNat 32 (if isFire s then 1 else 0) * s.par.interval := by
  obtain ⟨-, -, hfire, hkept⟩ := deadlineBelongsToTimer s u h
  cases hf : isFire s with
  | true => simp [hfire hf]
  | false => simp [hkept hb hf]

/-- The fires of a run add up, whatever its other steps do (43_timer.md R200). -/
theorem runSteps_nextDeadline (k : Nat) {s t : State} (h : runSteps k s = .next t) (hb : rebased k s = false) :
    t.nextDeadline = s.nextDeadline + BitVec.ofNat 32 (fireCount k s) * s.par.interval := by
  induction k generalizing s with
  | zero =>
    cases h
    simp [fireCount]
  | succ k ih =>
    obtain ⟨u, hstep, hrun⟩ := runSteps_succ_iff.1 h
    obtain ⟨hb₁, hb₂⟩ := (rebased_succ_eq_false_iff k hstep).1 hb
    rw [ih hrun hb₂, step_nextDeadline hstep hb₁, parametersAreConstant s u hstep, fireCount_succ k hstep,
      BitVec.ofNat_add, BitVec.add_mul, BitVec.add_assoc]

/-- A sum of words is the sum of their numbers while that stays below 2^32; the factor `n` may itself be past it. -/
theorem toNat_add_ofNat_mul {a b : Word} {n : Nat} (h : a.toNat + n * b.toNat < 2 ^ 32) :
    (a + BitVec.ofNat 32 n * b).toNat = a.toNat + n * b.toNat := by
  rw [BitVec.toNat_add, BitVec.toNat_mul, BitVec.toNat_ofNat, Nat.mod_mul_mod, Nat.add_mod_mod, Nat.mod_eq_of_lt h]

/-- Settles O39: the word equation by induction along the run, the one in numbers from it. -/
theorem deadlineNeverDrifts : Obligations.DeadlineNeverDrifts := by
  intro k s t h hb
  have hword := runSteps_nextDeadline k h hb
  refine ⟨hword, fun hlt => ?_⟩
  rw [hword]
  exact toNat_add_ofNat_mul hlt

/-! ### The tick -/

section Tick

variable {s : State}

theorem tick_of_match (h : s.tmrArmed = true ∧ s.counter + 1 = s.compare) :
    tick s = { s with counter := s.counter + 1, matchFlag := true, tmrArmed := false } := if_pos h

theorem tick_of_no_match (h : ¬ (s.tmrArmed = true ∧ s.counter + 1 = s.compare)) :
    tick s = { s with counter := s.counter + 1 } := if_neg h

/-- A tick does not clear `MATCH`. -/
theorem tick_matchFlag_of_set (h : s.matchFlag = true) : (tick s).matchFlag = true := by
  obtain ⟨-, -, he⟩ | ⟨-, he⟩ := tick_cases s <;> rw [he]
  exact h

end Tick

@[simp] theorem tick_par (s : State) : (tick s).par = s.par := by
  obtain ⟨-, -, he⟩ | ⟨-, he⟩ := tick_cases s <;> rw [he]

@[simp] theorem tick_enable (s : State) : (tick s).enable = s.enable := by
  obtain ⟨-, -, he⟩ | ⟨-, he⟩ := tick_cases s <;> rw [he]

/-- The timer's line of `RAW` is the match flag (10_state.md R30). -/
theorem raw_timerLine (s : State) : s.raw.getLsbD s.par.timerLine.toNat = s.matchFlag := by
  rw [raw_getLsbD s s.par.timerLine.isLt, if_pos rfl]

/-- `PENDING` shows the timer's line where `MATCH` is set and the line is enabled (10_state.md R31). -/
theorem pending_timerLine (s : State) :
    s.pending.getLsbD s.par.timerLine.toNat = (s.matchFlag && s.enable.getLsbD s.par.timerLine.toNat) := by
  rw [State.pending, BitVec.getLsbD_and, raw_timerLine]

/-- Settles O36: the two branches of the tick, and the timer's line, whose position and enable a tick keeps. -/
theorem tickMatchesOnEquality : Obligations.TickMatchesOnEquality := by
  intro s
  refine ⟨fun h => congrArg _ (tick_of_match h), fun h => congrArg _ (tick_of_no_match h), ?_⟩
  rintro t ⟨⟩
  rw [← tick_par s, ← tick_enable s]
  refine ⟨tick_matchFlag_of_set, fun hm => ?_, fun hm => ?_⟩
  · rw [raw_timerLine, hm]
  · rw [pending_timerLine, hm, Bool.true_and]

/-! ### The distance of a match -/

section Distance

variable {c m : Word} {d : Nat} (hd : d = if c = m then 2 ^ 32 else (m - c).toNat)

include hd

/-- The distance from the counter to the compare is the least positive number of ticks between them
(43_timer.md R205): at it the counter is the compare. -/
theorem add_matchDistance : 0 < d ∧ c + BitVec.ofNat 32 d = m := by
  split at hd <;> bv_omega

/-- Before it no tick makes them equal. -/
theorem add_ne_of_lt_matchDistance {k : Nat} (h0 : 0 < k) (hk : k < d) : c + BitVec.ofNat 32 k ≠ m := by
  split at hd <;> bv_omega

end Distance

/-- The last of several ticks, taken off the end of the run. -/
theorem ticks_succ_eq_tick (k : Nat) (s : State) : ticks (k + 1) s = tick (ticks k s) := by
  induction k generalizing s with
  | zero => rfl
  | succ k ih => exact ih (tick s)

theorem add_ofNat_add_one (c : Word) (k : Nat) : c + BitVec.ofNat 32 k + 1 = c + BitVec.ofNat 32 (k + 1) := by
  rw [BitVec.ofNat_add, ← BitVec.add_assoc]
  rfl

/-- Ticks that meet no equality only advance the counter. -/
theorem ticks_of_no_match {s : State} {k : Nat}
    (h : ∀ j, 0 < j → j ≤ k → s.counter + BitVec.ofNat 32 j ≠ s.compare) :
    ticks k s = { s with counter := s.counter + BitVec.ofNat 32 k } := by
  induction k with
  | zero => simp [ticks]
  | succ k ih =>
    have hne := h (k + 1) (Nat.succ_pos k) le_rfl
    rw [← add_ofNat_add_one] at hne
    rw [ticks_succ_eq_tick, ih fun j h0 hj => h j h0 (by omega), tick_of_no_match fun hm => hne hm.2]
    simp only [add_ofNat_add_one]

/-- Settles O37: no tick before the distance meets the compare, and the one at the distance does. -/
theorem matchAtDistance : Obligations.MatchAtDistance := by
  intro s d ha hd
  have hbefore : ∀ k, k < d → ticks k s = { s with counter := s.counter + BitVec.ofNat 32 k } := fun k hk =>
    ticks_of_no_match fun j h0 hj => add_ne_of_lt_matchDistance hd h0 (by omega)
  refine ⟨hbefore, ?_⟩
  obtain ⟨hpos, hat⟩ := add_matchDistance hd
  obtain ⟨k, rfl⟩ : ∃ k, d = k + 1 := ⟨d - 1, by omega⟩
  rw [← add_ofNat_add_one] at hat
  rw [ticks_succ_eq_tick, hbefore k (Nat.lt_succ_self k)]
  refine Eq.trans (tick_of_match ⟨ha, hat⟩) ?_
  simp only [hat]

/-! ### The counter -/

theorem PortMove.counter_eq {s t : State} (hv : PortMove s t) : t.counter = s.counter := by
  cases hv <;> rfl

/-- But for a reset, the tick is the counter's one writer (10_state.md R35). -/
theorem Moved.counter_eq {s t : State} {ev : Event} (hv : Moved s ev t) (hr : ev ≠ .reset) :
    t.counter = if ev = .tick then s.counter + 1 else s.counter := by
  cases hv with
  | still _ hf hc ht hr => rw [if_neg ht]
  | foreground r _ hf hm hm' =>
    obtain ⟨-, -, -, -, -, -, -, -, hcounter, -⟩ := hm'.frame
    exact hcounter
  | trapContext r _ hc hh hm =>
    obtain ⟨-, -, -, -, -, -, -, -, -, -, -, hcounter, -⟩ := hm.frame
    exact hcounter
  | host a rest u reply hq hp hm => exact hm.counter_eq
  | reset => exact absurd rfl hr
  | _ => rfl

/-- Settles O38: a step is a move from the state with its turn taken, which holds the same counter. -/
theorem counterIsFreeRunning : Obligations.CounterIsFreeRunning := by
  intro s t h hr
  obtain ⟨l, n, -, hv⟩ := step_moved h
  exact hv.counter_eq hr

/-! ### `TMR.INIT` -/

section Init

variable {s : State} {r : FgRecord}

theorem initStep_s1 (hs : r.step = .s1) :
    initStep s r = .next { s with fg := .busy { r with t := s.counter, step := .s2 } } := by
  simp only [initStep, hs]
  rfl

theorem initStep_s2 (hs : r.step = .s2) :
    initStep s r = .next { s with
      compare := r.t + s.par.interval
      tmrArmed := true
      fg := .busy { r with t := r.t + s.par.interval, step := .s3 } } := by
  simp only [initStep, hs]
  rfl

theorem initStep_s3 (hs : r.step = .s3) :
    initStep s r = .next { s with nextDeadline := r.t, err := 0, fg := .idle } := by
  simp only [initStep, hs]
  rfl

/-- A turn of the foreground with an operation in flight is that operation's micro-step. -/
theorem foregroundSteps_succ {i : Instr} {t : State} (k : Nat) (h : InFlight i s r)
    (hb : microBody i s r = .next t) : foregroundSteps (k + 1) s = foregroundSteps k t := by
  have hturn : foregroundTurn s = .next t := by
    rw [← hb, ← h.exec_eq, ← h.op]
    simp only [foregroundTurn, h.busy]
  simp only [foregroundSteps, hturn]

end Init

/-- Settles O21: the three micro-steps, and their composition; none of them blocks the foreground. -/
theorem tmrInitMicroSteps : Obligations.TmrInitMicroSteps := by
  refine ⟨fun s r h hs => h.exec_eq.trans (initStep_s1 hs), fun s r h hs => h.exec_eq.trans (initStep_s2 hs),
    fun s r h hs => h.exec_eq.trans (initStep_s3 hs), fun s r h hs => ?_⟩
  refine (foregroundSteps_succ 2 h (initStep_s1 hs)).trans ?_
  refine Eq.trans (foregroundSteps_succ 1 ⟨h.mayStep, rfl, h.op⟩
    (initStep_s2 (r := { r with t := s.counter, step := .s2 }) rfl)) ?_
  exact foregroundSteps_succ 0 ⟨h.mayStep, rfl, h.op⟩
    (initStep_s3 (r := { r with t := s.counter + s.par.interval, step := .s3 }) rfl)

/-! ### `TMR.FIRE` -/

/-- Settles O31: the three labels of the fire. -/
theorem fireReprogramsThenAcknowledges : Obligations.FireReprogramsThenAcknowledges :=
  fun _ _ hc hh => ⟨trapTurn_f1 hc hh, trapTurn_f2 hc hh, trapTurn_f3 hc hh⟩

/-- Settles O40: the match disarms, and the acknowledge clears the flag without arming again. -/
theorem lateMatchIsWiped : Obligations.LateMatchIsWiped := by
  intro s r hc hs hh ha heq
  obtain ⟨hmatch, -⟩ := tickMatchesOnEquality s
  exact ⟨_, _, hmatch ⟨ha, heq⟩, trapTurn_f3 hc hh hs, rfl, rfl, rfl, rfl⟩

end Sys2Proof.Machine
end

section
/-!
PROOFS. The trap context and an operation in flight along fair runs (60_exceptions.md R225, R241;
70_reset_and_hazards.md R273): a rank that no agent raises and each micro-step of the trap context lowers, until it
returns or the block halts.
-/

namespace Sys2Proof.Machine

/-! ### The rank of an active trap context -/

/-- A bound on the micro-steps a trap context takes before the one that ends it (41_vector_dispatch.md R163 to R169): a
terminal tag ends at `T0`, the interrupt's tag passes through the route match and the fire or the report to `T3`. -/
def TcRecord.rank (r : TcRecord) : Nat :=
  match r.step with
  | .t0 => if r.tag = irqTag then 5 else 0
  | .t1 => 4
  | .f1 => 3
  | .f2 => 2
  | .f3 => 1
  | .t2 => 1
  | .t3 => 0

/-- The rank of the active trap context. -/
def State.serviceRank (s : State) : Nat := s.tc.elim 0 TcRecord.rank

theorem serviceRank_of_tc {s : State} {r : TcRecord} (hc : s.tc = some r) : s.serviceRank = r.rank := by
  simp only [State.serviceRank, hc, Option.elim_some]

/-- A trap just presented with a terminal tag is one micro-step from the halt (41_vector_dispatch.md R165). -/
theorem rank_trapRecord {tag : Tag} (syn far : Word) (ht : tag ≠ irqTag) : (trapRecord tag syn far).rank = 0 :=
  if_neg ht

/-- A micro-step of the trap context lowers the rank, unless it ends the context's work. -/
theorem TrapMove.serviceRank_lt {s t : State} {r : TcRecord} (hv : TrapMove s r t) (ht : t.tcCanStep = true) :
    t.serviceRank < r.rank := by
  obtain ⟨hactive, hrun⟩ := (tcCanStep_iff t).1 ht
  cases hv with
  | unarmed => cases hrun
  | fatal => cases hrun
  | irq hs _ htag => simp [State.serviceRank, TcRecord.rank, hs, htag]
  | route hs =>
    by_cases hp : s.pending = timerBit s.par
    · simp [State.serviceRank, TcRecord.rank, hs, hp]
    · simp [State.serviceRank, TcRecord.rank, hs, hp]
  | report hs | advance hs | reprogram hs | acknowledge hs => simp [State.serviceRank, TcRecord.rank, hs]
  | back => exact absurd rfl hactive

/-- The turn of a trap context that can step, before and after it, lowers the rank. -/
theorem Moved.serviceRank_lt {s t : State} (hv : Moved s .trapContext t) (hs : s.tcCanStep = true)
    (ht : t.tcCanStep = true) : t.serviceRank < s.serviceRank := by
  obtain ⟨hactive, hrun⟩ := (tcCanStep_iff s).1 hs
  cases hv with
  | still _ _ hstill => exact absurd (hstill rfl) (by simp [hactive, hrun])
  | trapContext r _ hc _ hv' =>
    rw [serviceRank_of_tc hc]
    exact hv'.serviceRank_lt ht

/-- No agent raises the rank: a trap presented over an active context has a terminal tag (60_exceptions.md R217,
R224). -/
theorem Moved.serviceRank_le {s t : State} {ev : Event} (hv : Moved s ev t) (hs : s.tcCanStep = true)
    (ht : t.tcCanStep = true) : t.serviceRank ≤ s.serviceRank := by
  obtain ⟨hactive, -⟩ := (tcCanStep_iff s).1 hs
  have hmasked : s.irqAcceptable ≠ true := fun ha => by
    obtain ⟨-, -, hc, -⟩ := irqAcceptable_spec ha
    exact hactive hc
  cases hv with
  | foreground r _ hf hm hv' => exact absurd ((fgMayStep_iff s).1 hm).1 hactive
  | trapContext r _ hc hh hv' => exact (Moved.serviceRank_lt (.trapContext r _ hc hh hv') hs ht).le
  | host a rest u reply hq hp hv' =>
    obtain ⟨-, hc, -⟩ := portFree_spec hp
    exact absurd hc hactive
  | accept ha => exact absurd ha hmasked
  | presentIrq _ _ ha => exact absurd ha hmasked
  | present tag syn far htag =>
    rw [serviceRank_of_tc (takeTrap_tc s tag syn far), rank_trapRecord syn far htag]
    exact Nat.zero_le _
  | reset => exact absurd rfl ((tcCanStep_iff _).1 ht).1
  | _ => exact le_rfl

/-! ### Along a run -/

theorem not_tcCanStep_iff (s : State) : ¬ s.tcCanStep = true ↔ s.tc = none ∨ s.halted = true := by
  rw [tcCanStep_iff, not_and_or, not_not, Bool.not_eq_false]

section FairRun

variable {ε : Nat → Event} {ρ : Nat → State}

theorem IsRun.moved (h : IsRun ε ρ) (m : Nat) : Moved (ρ m) (ε m) (ρ (m + 1)) := takeEvent_moved (h m)

/-- A trap context that could step for ever would lower its rank for ever. -/
theorem FairRun.exists_not_tcCanStep (h : FairRun ε ρ) (k : Nat) : ∃ m, k ≤ m ∧ ¬ (ρ m).tcCanStep = true := by
  by_contra hnone
  have hcan : ∀ m, k ≤ m → (ρ m).tcCanStep = true := fun m hm => by_contra fun hn => hnone ⟨m, hm, hn⟩
  have hfalls : Antitone fun j => (ρ (k + j)).serviceRank := antitone_nat_of_succ_le fun j =>
    (h.isRun.moved (k + j)).serviceRank_le (hcan _ (by omega)) (hcan _ (by omega))
  obtain ⟨n, hconst⟩ := WellFoundedLT.antitone_chain_condition hfalls
  have hoften := h.trapContext fun m => ⟨max k m, le_max_right k m, hcan _ (le_max_left k m)⟩
  obtain ⟨m, hm, hev, hstep⟩ := hoften (k + n)
  obtain ⟨j, rfl⟩ := Nat.exists_eq_add_of_le (show k ≤ m by omega)
  have hlt : (ρ (k + (j + 1))).serviceRank < (ρ (k + j)).serviceRank :=
    (hev ▸ h.isRun.moved (k + j)).serviceRank_lt hstep (hcan _ (by omega))
  have hsame : (ρ (k + j)).serviceRank = (ρ (k + (j + 1))).serviceRank :=
    (hconst j (by omega)).symm.trans (hconst (j + 1) (by omega))
  exact absurd hsame hlt.ne'

/-- Where the foreground never steps and no reset comes, the operation in flight stays as it is. -/
theorem IsRun.fg_kept (h : IsRun ε ρ) {k : Nat} {r : FgRecord} (hf : (ρ k).fg = .busy r)
    (hidle : ∀ m, k ≤ m → ¬ (ε m = .foreground ∧ (ρ m).fgCanStep = true)) (hnr : ∀ m, k ≤ m → ε m ≠ .reset)
    {m : Nat} (hm : k ≤ m) : (ρ m).fg = .busy r := by
  induction m, hm using Nat.le_induction with
  | base => exact hf
  | succ m hm ih =>
    obtain ⟨hev, hmay, -⟩ | ⟨-, hkept⟩ := (h.moved m).busy_cases ih (hnr m hm)
    · exact absurd ⟨hev, by simp [State.fgCanStep, hmay, ih]⟩ (hidle m hm)
    · exact hkept

/-- An operation in flight that met no micro-step, halt or reset could step at each return of the trap context, so the
foreground would step after all. -/
theorem FairRun.exists_foreground_step (h : FairRun ε ρ) {k : Nat} (hf : (ρ k).fg ≠ .idle) :
    ∃ m, k ≤ m ∧ ((ε m = .foreground ∧ (ρ m).fgCanStep = true) ∨ (ρ m).halted = true ∨ ε m = .reset) := by
  by_contra hnone
  have hidle : ∀ m, k ≤ m → ¬ (ε m = .foreground ∧ (ρ m).fgCanStep = true) := fun m hm hs =>
    hnone ⟨m, hm, .inl hs⟩
  have hrun : ∀ m, k ≤ m → ¬ (ρ m).halted = true := fun m hm hh => hnone ⟨m, hm, .inr (.inl hh)⟩
  have hnr : ∀ m, k ≤ m → ε m ≠ .reset := fun m hm hev => hnone ⟨m, hm, .inr (.inr hev)⟩
  obtain ⟨r, hr⟩ : ∃ r, (ρ k).fg = .busy r := by
    cases hfg : (ρ k).fg with
    | idle => exact absurd hfg hf
    | busy r => exact ⟨r, rfl⟩
  have hreturns : Recurs fun m => (ρ m).fgCanStep = true := fun n => by
    obtain ⟨m, hm, hended⟩ := h.exists_not_tcCanStep (max k n)
    have hkm : k ≤ m := (le_max_left k n).trans hm
    have hbusy : (ρ m).fg = .busy r := h.isRun.fg_kept hr hidle hnr hkm
    have hc : (ρ m).tc = none := ((not_tcCanStep_iff _).1 hended).resolve_right (hrun m hkm)
    exact ⟨m, (le_max_right k n).trans hm,
      (fgCanStep_iff _).2 ⟨by simp [hbusy], hc, eq_false_of_ne_true (hrun m hkm)⟩⟩
  obtain ⟨m, hm, hstep⟩ := h.foreground hreturns k
  exact hidle m hm hstep

end FairRun

/-- Settles O35: the rank ends every active context, and each of its ends gives the foreground a turn. -/
theorem fairTrapContextEnds : Obligations.FairTrapContextEnds := by
  intro ε ρ h k
  refine ⟨?_, h.exists_foreground_step⟩
  obtain ⟨m, hm, hended⟩ := h.exists_not_tcCanStep k
  exact ⟨m, hm, (not_tcCanStep_iff _).1 hended⟩

end Sys2Proof.Machine
end

section
/-!
PROOFS. The step of the whole machine (60_exceptions.md R241): the scheduled agent's turn, the foreground's turn as the
operation in flight, and the launch of a decoded operation through the port (20_memory.md R86).
-/

namespace Sys2Proof.Machine

section Scheduled

variable {s : State} {ev : Event} {rest : List Event}

theorem step_of_sched (h : s.env.sched = ev :: rest) :
    step s = takeEvent ev { s with env := { s.env with sched := rest } } := by
  rw [step, nextEvent_cons s ev rest h, takeTurn_cons s ev rest h]

theorem foregroundTurn_of_busy {r : FgRecord} (hf : s.fg = .busy r) : foregroundTurn s = exec r.instr s := by
  simp only [foregroundTurn, hf]

theorem step_foreground_of_sched {r : FgRecord} (h : s.env.sched = .foreground :: rest) (hf : s.fg = .busy r) :
    step s = exec r.instr { s with env := { s.env with sched := rest } } :=
  (step_of_sched h).trans (foregroundTurn_of_busy hf)

end Scheduled

/-- `OP_CMD` stands at offset 0x2C (20_memory.md R70). -/
theorem admission_opCmd {p : Params} (hb : p.blockBase % 0x80 = 0) :
    admission p (p.blockBase + 0x2C) .word = .admitted .opCmd := by
  obtain ⟨hslot, -⟩ := windowMap p (p.blockBase + 0x2C) .word
  exact hslot 11 (by decide) rfl hb rfl

/-- A free port that serves the write of a legal command word launches its operation (20_memory.md R86). -/
theorem hostTurn_launches {s : State} {w : Word} {i : Instr} {held : List Access} (hd : decode w = .legal i)
    (hp : s.portFree = true) (hb : s.par.blockBase % 0x80 = 0)
    (hq : s.env.hostQueue = .write (s.par.blockBase + 0x2C) .word w :: held) :
    hostTurn s = .next { s with
      lastCmd := w
      fg := .busy (launchRecord i s)
      env := { s.env with hostQueue := held, hostReply := .written } } := by
  have hserve := serveAccess_write (s := { s with env := { s.env with hostQueue := held } }) w (admission_opCmd hb)
  rw [regWrite, writeOpCmd_legal _ hd] at hserve
  exact (hostTurn_free hp hq).trans hserve

theorem tableWord_toNat (w : Word) : tableWord 32 w.toNat = some w := by
  rw [tableWord, if_pos le_rfl, Nat.mod_eq_of_lt w.isLt, BitVec.ofNat_toNat, BitVec.setWidth_eq]

theorem decodeTableWord_toNat (w : Word) : decodeTableWord 32 w.toNat = (decode w).instr? := by
  rw [decodeTableWord, tableWord_toNat]

theorem withFetchWord_toNat (s : State) (w : Word) : s.withFetchWord 32 w.toNat = launchNext w s := by
  rw [State.withFetchWord, tableWord_toNat]

/-- Right after the write of a legal command word the next step is the operation's first micro-step (log entry 18). -/
theorem step_launchNext {w : Word} {i : Instr} (s : State) (hd : decode w = .legal i) :
    step (launchNext w s) = exec i { s with
      lastCmd := w
      fg := .busy (launchRecord i s)
      tc := none
      halted := false } := by
  rw [launchNext, writeOpCmd_legal _ hd]
  exact step_foreground_of_sched (r := launchRecord i s) rfl rfl

/-- Settles O10: a turn, the foreground's turn, the launch through the port and the launch by `withFetchWord`. -/
theorem stepRunsDecodedOperation : Obligations.StepRunsDecodedOperation := by
  refine ⟨fun s ev rest h => step_of_sched h, fun s r rest h hf => step_foreground_of_sched h hf,
    fun s w i rest held hd h hp hb hq => ?_, fun s w i hd => ⟨?_, ?_⟩⟩
  · exact (step_of_sched h).trans (hostTurn_launches hd hp hb hq)
  · rw [decodeTableWord_toNat, hd, Decoded.instr?]
  · rw [withFetchWord_toNat]
    exact step_launchNext s hd

end Sys2Proof.Machine
end

section
/-!
PROOFS. The core, the co-processor and the external lines (60_exceptions.md): presentation and acceptance of traps, the
co-processor's pop and push, and a change of the lines.
-/

namespace Sys2Proof.Machine

/-! ### The core -/

section Presentation

variable {s : State} {tag : Tag} (syn far : Word) (ht : tag ≠ irqTag)

include ht

theorem presentTrap_of_running (hh : s.halted = false) : presentTrap tag syn far s = takeTrap tag syn far s := by
  rw [presentTrap, if_neg ht, hh, if_neg Bool.false_ne_true]

theorem presentTrap_of_halted (hh : s.halted = true) : presentTrap tag syn far s = s := by
  rw [presentTrap, if_neg ht, if_pos hh]

end Presentation

/-- The interrupt's tag is presented only as an acceptance (60_exceptions.md R217, R224; log entry 16). -/
theorem presentTrap_irqTag (syn far : Word) (s : State) : presentTrap irqTag syn far s = acceptIrq s := if_pos rfl

/-- The four conditions of an acceptance (60_exceptions.md R224). -/
theorem irqAcceptable_iff (s : State) :
    s.irqAcceptable = true ↔ s.pending ≠ 0 ∧ s.gie = true ∧ s.tc = none ∧ s.halted = false := by
  simp [State.irqAcceptable, State.irqOut, State.irqMasked, and_assoc]

/-- Settles O26: a tag other than the interrupt's asks for nothing but a running block. -/
theorem presentedTrapIsTaken : Obligations.PresentedTrapIsTaken :=
  fun _ _ syn far ht => ⟨fun hh => congrArg _ (presentTrap_of_running syn far ht hh),
    fun hh => congrArg _ (presentTrap_of_halted syn far ht hh)⟩

/-- Settles O27: the core's turn and a presented tag 13 are the one acceptance. -/
theorem interruptAcceptance : Obligations.InterruptAcceptance := by
  intro s
  rw [← irqAcceptable_iff]
  have hyes (ha : s.irqAcceptable = true) : acceptIrq s = takeTrap irqTag 0 0 s := if_pos ha
  have hno (ha : ¬ s.irqAcceptable = true) : acceptIrq s = s := if_neg ha
  exact ⟨fun ha => congrArg _ (hyes ha), fun ha => congrArg _ (hno ha), fun syn far =>
    ⟨fun ha => congrArg _ ((presentTrap_irqTag syn far s).trans (hyes ha)),
      fun ha => congrArg _ ((presentTrap_irqTag syn far s).trans (hno ha))⟩⟩

/-! ### The co-processor -/

theorem cpPop_cons {s : State} {w : Word} {rest : List Word} (h : s.out = w :: rest) :
    cpPop s = { s with out := rest, env := { s.env with cpTaken := some w } } := by
  simp only [cpPop, h]

theorem cpPop_nil {s : State} (h : s.out = []) : cpPop s = s := by
  simp only [cpPop, h]

/-- Settles O49: the two cases of the pop and the two of the push. -/
theorem coprocessorPort : Obligations.CoprocessorPort :=
  fun _ => ⟨fun _ _ h => congrArg _ (cpPop_cons h), fun h => congrArg _ (cpPop_nil h),
    fun _ hl => congrArg _ (if_pos hl), fun _ hl => congrArg _ (if_neg (Nat.not_lt.2 hl))⟩

/-! ### The external lines -/

/-- Settles O50: off the timer's line `RAW` is `EXT`, and a change of the lines keeps `ENABLE`. -/
theorem externalLinesAreFollowed : Obligations.ExternalLinesAreFollowed := by
  intro s w
  refine ⟨setExt w s, rfl, rfl, fun k hk hne => ?_⟩
  rw [State.pending, BitVec.getLsbD_and, raw_getLsbD _ hk]
  exact congrArg (· && _) (if_neg hne)

end Sys2Proof.Machine
end

section
/-!
PROOFS. Reset (70_reset_and_hazards.md R260, R261) and the independence of the mailbox from interrupts (R270): the trap
context leaves the mailbox part, and of the state it stands in a micro-step of `MBX.SEND` or `MBX.RECV` reads and
writes that part alone.
-/

namespace Sys2Proof.Machine

/-! ### Reset -/

theorem pending_of_enable_zero {s : State} (h : s.enable = 0) : s.pending = 0 := by
  rw [State.pending, h]
  exact BitVec.and_zero

/-- Settles O51: the registers by the reset table; with both FIFOs empty and every line disabled the derived words are
zero too. -/
theorem resetFromAnyState : Obligations.ResetFromAnyState := by
  intro s
  have hstatus (hd : 1 ≤ s.par.mbxDepth) : (resetBlock s).mbxStatus = 0 :=
    (mbxStatus_eq_zero_iff _).2 ⟨rfl, (Nat.ne_of_gt hd).symm⟩
  have hpending : (resetBlock s).pending = 0 := pending_of_enable_zero rfl
  have hirq : (resetBlock s).irqOut = false := by rw [State.irqOut, hpending, bne_self_eq_false]
  have hop : (resetBlock s).opStatus = 0 := by simp [State.opStatus, resetBlock, State.resetWith, flagBit]
  exact ⟨resetBlock s, rfl, rfl, rfl, rfl, rfl, rfl, rfl, rfl, rfl, rfl, rfl, rfl, rfl, rfl, rfl, rfl, rfl, rfl, rfl,
    rfl, rfl, rfl, rfl, rfl, rfl, rfl, rfl, hstatus, hpending, hirq, hop⟩

/-! ### States that agree on the mailbox part -/

/-- The mailbox part an answer leaves, where it is a next state. -/
def mailboxAnswer : Answer → Option MailboxPart
  | .next t => some t.mailboxPart
  | .fault _ => none
  | .refused _ => none

section Agree

variable {s u : State} (h : s.mailboxPart = u.mailboxPart)

include h

theorem fg_eq_of_mailboxPart : s.fg = u.fg := congrArg MailboxPart.fg h

theorem out_eq_of_mailboxPart : s.out = u.out := congrArg MailboxPart.out h

theorem inb_eq_of_mailboxPart : s.inb = u.inb := congrArg MailboxPart.inb h

theorem depth_eq_of_mailboxPart : s.par.mbxDepth = u.par.mbxDepth := congrArg MailboxPart.depth h

theorem draws_eq_of_mailboxPart : s.env.draws = u.env.draws := congrArg MailboxPart.draws h

theorem mbxStatus_eq_of_mailboxPart : s.mbxStatus = u.mbxStatus := by
  simp only [State.mbxStatus, State.outFull, State.inAvail, out_eq_of_mailboxPart h, inb_eq_of_mailboxPart h,
    depth_eq_of_mailboxPart h]

theorem mailboxPart_goto_congr (r : FgRecord) (l : FgLabel) : (s.goto r l).mailboxPart = (u.goto r l).mailboxPart :=
  congrArg (fun p : MailboxPart => { p with fg := .busy { r with step := l } }) h

theorem mailboxPart_finish_congr (c : BitVec 4) : (s.finish c).mailboxPart = (u.finish c).mailboxPart :=
  congrArg (fun p : MailboxPart => { p with fg := .idle, err := c }) h

theorem mailboxPart_result_congr (w : Word) :
    ({ s with result := w } : State).mailboxPart = ({ u with result := w } : State).mailboxPart :=
  congrArg (fun p : MailboxPart => { p with result := w }) h

/-- A read of `MBX_DATA` answers both with the same word, popped or free (20_memory.md R74). -/
theorem regRead_mbxData_congr : ∃ w s' u', regRead .mbxData s = (w, s') ∧ regRead .mbxData u = (w, u') ∧
    s'.mailboxPart = u'.mailboxPart := by
  obtain ⟨hpop, hdraw, -⟩ := mailboxDataPort s 0
  obtain ⟨hpop', hdraw', -⟩ := mailboxDataPort u 0
  have hinb := inb_eq_of_mailboxPart h
  cases hb : s.inb with
  | nil =>
    rw [← draws_eq_of_mailboxPart h] at hdraw'
    exact ⟨_, _, _, hdraw hb, hdraw' (hinb.symm.trans hb),
      congrArg (fun p : MailboxPart => { p with draws := s.env.draws + 1 }) h⟩
  | cons w rest =>
    exact ⟨_, _, _, hpop w rest hb, hpop' w rest (hinb.symm.trans hb),
      congrArg (fun p : MailboxPart => { p with inb := rest }) h⟩

/-- A write of `MBX_DATA` is pushed in both or dropped in both (20_memory.md R75). -/
theorem mailboxPart_regWrite_mbxData_congr (w : Word) :
    (regWrite .mbxData w s).mailboxPart = (regWrite .mbxData w u).mailboxPart := by
  obtain ⟨-, -, hpush, hdrop⟩ := mailboxDataPort s w
  obtain ⟨-, -, hpush', hdrop'⟩ := mailboxDataPort u w
  rw [← out_eq_of_mailboxPart h, ← depth_eq_of_mailboxPart h] at hpush' hdrop'
  obtain hl | hl := Nat.lt_or_ge s.out.length s.par.mbxDepth
  · rw [hpush hl, hpush' hl]
    exact congrArg (fun p : MailboxPart => { p with out := s.out ++ [w] }) h
  · rw [hdrop hl, hdrop' hl, h]

/-! ### The mailbox operations from such states -/

theorem mailboxAnswer_sendStep_congr (ch : Channel) (r : FgRecord) :
    mailboxAnswer (sendStep ch s r) = mailboxAnswer (sendStep ch u r) := by
  cases hs : r.step with
  | s1 =>
    rw [sendStep_s1 hs, sendStep_s1 hs, ← mbxStatus_eq_of_mailboxPart h]
    exact congrArg some (mailboxPart_goto_congr h { r with t := s.mbxStatus } _)
  | s2 =>
    rw [sendStep_s2 hs, sendStep_s2 hs]
    exact congrArg some (mailboxPart_finish_congr (mailboxPart_regWrite_mbxData_congr h _) 0)
  | s3 => simp only [sendStep, hs, mailboxAnswer]

theorem mailboxPart_recvPoll_congr (r : FgRecord) : (recvPoll s r).mailboxPart = (recvPoll u r).mailboxPart := by
  have hstatus : (regRead .mbxStatus s).1 = (regRead .mbxStatus u).1 := mbxStatus_eq_of_mailboxPart h
  unfold recvPoll
  rw [hstatus]
  split
  · exact mailboxPart_finish_congr (mailboxPart_result_congr h _) 2
  · exact mailboxPart_goto_congr h _ _

theorem mailboxPart_recvTake_congr (ch : Channel) (r : FgRecord) :
    (recvTake ch s r).mailboxPart = (recvTake ch u r).mailboxPart := by
  obtain ⟨w, s', u', hs, hu, h'⟩ := regRead_mbxData_congr h
  simp only [recvTake, hs, hu]
  split
  · exact mailboxPart_finish_congr (mailboxPart_result_congr h' _) 0
  · exact mailboxPart_goto_congr h' _ _

theorem mailboxAnswer_recvStep_congr (ch : Channel) (r : FgRecord) :
    mailboxAnswer (recvStep ch s r) = mailboxAnswer (recvStep ch u r) := by
  cases hs : r.step with
  | s1 =>
    rw [recvStep_s1 hs, recvStep_s1 hs]
    exact congrArg some (mailboxPart_recvPoll_congr h r)
  | s2 =>
    rw [recvStep_s2 hs, recvStep_s2 hs]
    exact congrArg some (mailboxPart_recvTake_congr h ch r)
  | s3 => simp only [recvStep, hs, mailboxAnswer]

/-- Both mailbox operations, with an operation in flight: the answers agree as the micro-steps' do. -/
theorem mailboxAnswer_exec_congr {i : Instr} (hi : ∃ ch, i = .mbxSend ch ∨ i = .mbxRecv ch)
    (hs : s.fgMayStep = true) (hu : u.fgMayStep = true) (hf : s.fg ≠ .idle) :
    mailboxAnswer (exec i s) = mailboxAnswer (exec i u) := by
  have hbody (r : FgRecord) : mailboxAnswer (microBody i s r) = mailboxAnswer (microBody i u r) := by
    obtain ⟨ch, rfl | rfl⟩ := hi
    · exact mailboxAnswer_sendStep_congr h ch r
    · exact mailboxAnswer_recvStep_congr h ch r
  rw [exec_eq_microStep, exec_eq_microStep]
  cases hb : s.fg with
  | idle => exact absurd hb hf
  | busy r =>
    have hb' : u.fg = .busy r := (fg_eq_of_mailboxPart h).symm.trans hb
    by_cases hr : r.instr = i
    · rw [microStep_busy i _ s r hs hb hr, microStep_busy i _ u r hu hb' hr, hbody]
    · rw [microStep_notInFlight i _ s r hs hb hr, microStep_notInFlight i _ u r hu hb' hr]

end Agree

/-- Settles O34: the trap context's frame, and the mailbox operations' answers from states that agree on the mailbox
part. -/
theorem mailboxIsIndependentOfInterrupts : Obligations.MailboxIsIndependentOfInterrupts := by
  refine ⟨fun s t h ha => ?_, fun i s u s' u' hi hs hu hf h hes heu => ?_⟩
  · obtain ⟨hfg, -, -, hresult, -, -, -, -, -, hout, hinb, -, hpar, henv, herr, -⟩ := trapContextFrame s t h
    simp only [State.mailboxPart, hfg, hresult, hout, hinb, hpar, henv, herr ha]
  · have hanswers := mailboxAnswer_exec_congr h hi hs hu hf
    rw [hes, heu] at hanswers
    exact Option.some.inj hanswers

end Sys2Proof.Machine
end

section
/-!
PROOFS. Words of the test vectors through the decoder (95_test_vectors.md section 2.1; 30_encoding.md R107): a word that
is an operation's command word, and the name under which a word is rejected.
-/

namespace Sys2Proof

/-! ### The name of a rejected word (R107) -/

theorem decode_reservedOpcode {w : Word} (hop : opField w = 0#4 ∨ 8 ≤ (opField w).toNat) :
    decode w = .illegal .reservedOpcode := if_pos hop

theorem decode_mustBeZero {w : Word} (hop : ¬(opField w = 0#4 ∨ 8 ≤ (opField w).toNat))
    (hzero : zeroField w ≠ 0#23) : decode w = .illegal .mustBeZero :=
  (if_neg hop).trans (if_pos hzero)

theorem decode_selectorTooWide {w : Word} (hop : opField w = 5#4 ∨ opField w = 6#4 ∨ opField w = 7#4)
    (hzero : zeroField w = 0#23) (hsel : (selField w).getLsbD 4 = true) :
    decode w = .illegal .selectorTooWide := by
  obtain hop | hop | hop := hop
  all_goals simp [decode, decodeSelected, decodeNibble, hop, hzero, hsel]

/-! ### The ten words -/

/-- The decoder reads an operation back from its command word. -/
theorem decode_encode (i : Instr) : decode (encode i) = .legal i := (decodeExactlyEncode _ i).2 rfl

/-- Settles O5: seven of the words are command words of operations, and three break one clause of R107 each. -/
theorem vectorWordsDecode : Obligations.VectorWordsDecode :=
  ⟨decode_encode .vecInit, decode_encode .tmrInit, decode_encode (.icgEnable 31), decode_encode .irqUnmask,
    decode_encode (.mbxSend 1), decode_encode (.mbxRecv 15), decode_encode (.trap 13),
    decode_reservedOpcode (by decide), decode_mustBeZero (by decide) (by decide),
    decode_selectorTooWide (by decide) (by decide) (by decide)⟩

end Sys2Proof
end
